-- ==== Sys2Proof/Word.lean ====
section
/-! DEFINITION. The two word types of the machine (spec/00_scope.md R12). -/

namespace Sys2Proof

/-- A byte, `u8` of R12: DATA_WIDTH = 8 (R10). -/
abbrev Byte := BitVec 8

/-- A 16-bit address or pointer, `u16` of R12: ADDR_WIDTH = 16 (R10). -/
abbrev Addr := BitVec 16

end Sys2Proof
end

