-- ==== Sys2Proof/Syntax.lean ====
section
/-! DEFINITION. The instructions as syntax (spec/30_encoding.md): the 56 mnemonics, the 13 addressing modes, one constructor
of `Instr` for each of the 151 rows of opcode_table.json, and the operand spellings of an assembler line (R147). -/

namespace Sys2Proof

/-- The 56 mnemonics of R144. -/
inductive Mnemonic where
  | lda | ldx | ldy | sta | stx | sty | tax | tay
  | tsx | txa | txs | tya | pha | php | pla | plp
  | adc | sbc | cmp | cpx | cpy | inc | dec | inx
  | iny | dex | dey | and | ora | eor | bit | asl
  | lsr | rol | ror | jmp | jsr | rts | rti | brk
  | bcc | bcs | beq | bmi | bne | bpl | bvc | bvs
  | clc | cld | cli | clv | sec | sed | sei | nop
  deriving DecidableEq, Repr

/-- The thirteen addressing modes of R142. -/
inductive Mode where
  | imp | acc | imm | zp | zpx | zpy | abs | absx | absy | ind | indx | indy | rel
  deriving DecidableEq, Repr

/-- The length in bytes of an instruction of a mode (R141, R142). -/
def Mode.length : Mode → Nat
  | .imp | .acc => 1
  | .imm | .zp | .zpx | .zpy | .indx | .indy | .rel => 2
  | .abs | .absx | .absy | .ind => 3

/-- An instruction: one constructor for each opcode of R144, with its operand bytes as they stand in the encoding (R141):
`v` an immediate byte, `z` a zero-page byte, `a` a 16-bit address, `off` a branch offset byte. -/
inductive Instr where
  -- Load and store (spec/41_load_store.md)
  | ldaIndx (z : Byte) | ldaZp (z : Byte) | ldaImm (v : Byte) | ldaAbs (a : Addr) | ldaIndy (z : Byte)
  | ldaZpx (z : Byte) | ldaAbsy (a : Addr) | ldaAbsx (a : Addr) | ldxImm (v : Byte) | ldxZp (z : Byte)
  | ldxAbs (a : Addr) | ldxZpy (z : Byte) | ldxAbsy (a : Addr) | ldyImm (v : Byte) | ldyZp (z : Byte)
  | ldyAbs (a : Addr) | ldyZpx (z : Byte) | ldyAbsx (a : Addr) | staIndx (z : Byte) | staZp (z : Byte)
  | staAbs (a : Addr) | staIndy (z : Byte) | staZpx (z : Byte) | staAbsy (a : Addr) | staAbsx (a : Addr)
  | stxZp (z : Byte) | stxAbs (a : Addr) | stxZpy (z : Byte) | styZp (z : Byte) | styAbs (a : Addr)
  | styZpx (z : Byte)
  -- Register transfer and stack (spec/42_transfer_stack.md)
  | tax | tay | tsx | txa | txs | tya | pha | php | pla | plp
  -- Arithmetic, compare, increment and decrement (spec/43_arithmetic.md)
  | adcIndx (z : Byte) | adcZp (z : Byte) | adcImm (v : Byte) | adcAbs (a : Addr) | adcIndy (z : Byte)
  | adcZpx (z : Byte) | adcAbsy (a : Addr) | adcAbsx (a : Addr) | sbcIndx (z : Byte) | sbcZp (z : Byte)
  | sbcImm (v : Byte) | sbcAbs (a : Addr) | sbcIndy (z : Byte) | sbcZpx (z : Byte) | sbcAbsy (a : Addr)
  | sbcAbsx (a : Addr) | cmpIndx (z : Byte) | cmpZp (z : Byte) | cmpImm (v : Byte) | cmpAbs (a : Addr)
  | cmpIndy (z : Byte) | cmpZpx (z : Byte) | cmpAbsy (a : Addr) | cmpAbsx (a : Addr) | cpxImm (v : Byte)
  | cpxZp (z : Byte) | cpxAbs (a : Addr) | cpyImm (v : Byte) | cpyZp (z : Byte) | cpyAbs (a : Addr) | incZp (z : Byte)
  | incAbs (a : Addr) | incZpx (z : Byte) | incAbsx (a : Addr) | decZp (z : Byte) | decAbs (a : Addr)
  | decZpx (z : Byte) | decAbsx (a : Addr) | inx | iny | dex | dey
  -- Logic, bit test and shift (spec/44_logic_shift.md)
  | andIndx (z : Byte) | andZp (z : Byte) | andImm (v : Byte) | andAbs (a : Addr) | andIndy (z : Byte)
  | andZpx (z : Byte) | andAbsy (a : Addr) | andAbsx (a : Addr) | oraIndx (z : Byte) | oraZp (z : Byte)
  | oraImm (v : Byte) | oraAbs (a : Addr) | oraIndy (z : Byte) | oraZpx (z : Byte) | oraAbsy (a : Addr)
  | oraAbsx (a : Addr) | eorIndx (z : Byte) | eorZp (z : Byte) | eorImm (v : Byte) | eorAbs (a : Addr)
  | eorIndy (z : Byte) | eorZpx (z : Byte) | eorAbsy (a : Addr) | eorAbsx (a : Addr) | bitZp (z : Byte)
  | bitAbs (a : Addr) | aslZp (z : Byte) | aslAcc | aslAbs (a : Addr) | aslZpx (z : Byte) | aslAbsx (a : Addr)
  | lsrZp (z : Byte) | lsrAcc | lsrAbs (a : Addr) | lsrZpx (z : Byte) | lsrAbsx (a : Addr) | rolZp (z : Byte) | rolAcc
  | rolAbs (a : Addr) | rolZpx (z : Byte) | rolAbsx (a : Addr) | rorZp (z : Byte) | rorAcc | rorAbs (a : Addr)
  | rorZpx (z : Byte) | rorAbsx (a : Addr)
  -- Control transfer (spec/45_control.md)
  | jmpAbs (a : Addr) | jmpInd (a : Addr) | jsr (a : Addr) | rts | rti | brk | bcc (off : Byte) | bcs (off : Byte)
  | beq (off : Byte) | bmi (off : Byte) | bne (off : Byte) | bpl (off : Byte) | bvc (off : Byte) | bvs (off : Byte)
  -- Flags and no-operation (spec/46_flags_misc.md)
  | clc | cld | cli | clv | sec | sed | sei | nop
  deriving DecidableEq, Repr

/-- The mnemonic and mode of an instruction: its cell of the opcode map (R144). -/
def Instr.form : Instr → Mnemonic × Mode
  | .ldaIndx _ => (.lda, .indx)
  | .ldaZp _ => (.lda, .zp)
  | .ldaImm _ => (.lda, .imm)
  | .ldaAbs _ => (.lda, .abs)
  | .ldaIndy _ => (.lda, .indy)
  | .ldaZpx _ => (.lda, .zpx)
  | .ldaAbsy _ => (.lda, .absy)
  | .ldaAbsx _ => (.lda, .absx)
  | .ldxImm _ => (.ldx, .imm)
  | .ldxZp _ => (.ldx, .zp)
  | .ldxAbs _ => (.ldx, .abs)
  | .ldxZpy _ => (.ldx, .zpy)
  | .ldxAbsy _ => (.ldx, .absy)
  | .ldyImm _ => (.ldy, .imm)
  | .ldyZp _ => (.ldy, .zp)
  | .ldyAbs _ => (.ldy, .abs)
  | .ldyZpx _ => (.ldy, .zpx)
  | .ldyAbsx _ => (.ldy, .absx)
  | .staIndx _ => (.sta, .indx)
  | .staZp _ => (.sta, .zp)
  | .staAbs _ => (.sta, .abs)
  | .staIndy _ => (.sta, .indy)
  | .staZpx _ => (.sta, .zpx)
  | .staAbsy _ => (.sta, .absy)
  | .staAbsx _ => (.sta, .absx)
  | .stxZp _ => (.stx, .zp)
  | .stxAbs _ => (.stx, .abs)
  | .stxZpy _ => (.stx, .zpy)
  | .styZp _ => (.sty, .zp)
  | .styAbs _ => (.sty, .abs)
  | .styZpx _ => (.sty, .zpx)
  | .tax => (.tax, .imp)
  | .tay => (.tay, .imp)
  | .tsx => (.tsx, .imp)
  | .txa => (.txa, .imp)
  | .txs => (.txs, .imp)
  | .tya => (.tya, .imp)
  | .pha => (.pha, .imp)
  | .php => (.php, .imp)
  | .pla => (.pla, .imp)
  | .plp => (.plp, .imp)
  | .adcIndx _ => (.adc, .indx)
  | .adcZp _ => (.adc, .zp)
  | .adcImm _ => (.adc, .imm)
  | .adcAbs _ => (.adc, .abs)
  | .adcIndy _ => (.adc, .indy)
  | .adcZpx _ => (.adc, .zpx)
  | .adcAbsy _ => (.adc, .absy)
  | .adcAbsx _ => (.adc, .absx)
  | .sbcIndx _ => (.sbc, .indx)
  | .sbcZp _ => (.sbc, .zp)
  | .sbcImm _ => (.sbc, .imm)
  | .sbcAbs _ => (.sbc, .abs)
  | .sbcIndy _ => (.sbc, .indy)
  | .sbcZpx _ => (.sbc, .zpx)
  | .sbcAbsy _ => (.sbc, .absy)
  | .sbcAbsx _ => (.sbc, .absx)
  | .cmpIndx _ => (.cmp, .indx)
  | .cmpZp _ => (.cmp, .zp)
  | .cmpImm _ => (.cmp, .imm)
  | .cmpAbs _ => (.cmp, .abs)
  | .cmpIndy _ => (.cmp, .indy)
  | .cmpZpx _ => (.cmp, .zpx)
  | .cmpAbsy _ => (.cmp, .absy)
  | .cmpAbsx _ => (.cmp, .absx)
  | .cpxImm _ => (.cpx, .imm)
  | .cpxZp _ => (.cpx, .zp)
  | .cpxAbs _ => (.cpx, .abs)
  | .cpyImm _ => (.cpy, .imm)
  | .cpyZp _ => (.cpy, .zp)
  | .cpyAbs _ => (.cpy, .abs)
  | .incZp _ => (.inc, .zp)
  | .incAbs _ => (.inc, .abs)
  | .incZpx _ => (.inc, .zpx)
  | .incAbsx _ => (.inc, .absx)
  | .decZp _ => (.dec, .zp)
  | .decAbs _ => (.dec, .abs)
  | .decZpx _ => (.dec, .zpx)
  | .decAbsx _ => (.dec, .absx)
  | .inx => (.inx, .imp)
  | .iny => (.iny, .imp)
  | .dex => (.dex, .imp)
  | .dey => (.dey, .imp)
  | .andIndx _ => (.and, .indx)
  | .andZp _ => (.and, .zp)
  | .andImm _ => (.and, .imm)
  | .andAbs _ => (.and, .abs)
  | .andIndy _ => (.and, .indy)
  | .andZpx _ => (.and, .zpx)
  | .andAbsy _ => (.and, .absy)
  | .andAbsx _ => (.and, .absx)
  | .oraIndx _ => (.ora, .indx)
  | .oraZp _ => (.ora, .zp)
  | .oraImm _ => (.ora, .imm)
  | .oraAbs _ => (.ora, .abs)
  | .oraIndy _ => (.ora, .indy)
  | .oraZpx _ => (.ora, .zpx)
  | .oraAbsy _ => (.ora, .absy)
  | .oraAbsx _ => (.ora, .absx)
  | .eorIndx _ => (.eor, .indx)
  | .eorZp _ => (.eor, .zp)
  | .eorImm _ => (.eor, .imm)
  | .eorAbs _ => (.eor, .abs)
  | .eorIndy _ => (.eor, .indy)
  | .eorZpx _ => (.eor, .zpx)
  | .eorAbsy _ => (.eor, .absy)
  | .eorAbsx _ => (.eor, .absx)
  | .bitZp _ => (.bit, .zp)
  | .bitAbs _ => (.bit, .abs)
  | .aslZp _ => (.asl, .zp)
  | .aslAcc => (.asl, .acc)
  | .aslAbs _ => (.asl, .abs)
  | .aslZpx _ => (.asl, .zpx)
  | .aslAbsx _ => (.asl, .absx)
  | .lsrZp _ => (.lsr, .zp)
  | .lsrAcc => (.lsr, .acc)
  | .lsrAbs _ => (.lsr, .abs)
  | .lsrZpx _ => (.lsr, .zpx)
  | .lsrAbsx _ => (.lsr, .absx)
  | .rolZp _ => (.rol, .zp)
  | .rolAcc => (.rol, .acc)
  | .rolAbs _ => (.rol, .abs)
  | .rolZpx _ => (.rol, .zpx)
  | .rolAbsx _ => (.rol, .absx)
  | .rorZp _ => (.ror, .zp)
  | .rorAcc => (.ror, .acc)
  | .rorAbs _ => (.ror, .abs)
  | .rorZpx _ => (.ror, .zpx)
  | .rorAbsx _ => (.ror, .absx)
  | .jmpAbs _ => (.jmp, .abs)
  | .jmpInd _ => (.jmp, .ind)
  | .jsr _ => (.jsr, .abs)
  | .rts => (.rts, .imp)
  | .rti => (.rti, .imp)
  | .brk => (.brk, .imp)
  | .bcc _ => (.bcc, .rel)
  | .bcs _ => (.bcs, .rel)
  | .beq _ => (.beq, .rel)
  | .bmi _ => (.bmi, .rel)
  | .bne _ => (.bne, .rel)
  | .bpl _ => (.bpl, .rel)
  | .bvc _ => (.bvc, .rel)
  | .bvs _ => (.bvs, .rel)
  | .clc => (.clc, .imp)
  | .cld => (.cld, .imp)
  | .cli => (.cli, .imp)
  | .clv => (.clv, .imp)
  | .sec => (.sec, .imp)
  | .sed => (.sed, .imp)
  | .sei => (.sei, .imp)
  | .nop => (.nop, .imp)

def Instr.mnemonic (i : Instr) : Mnemonic := i.form.1

def Instr.mode (i : Instr) : Mode := i.form.2

/-- How an operand is spelled on an assembler line (R142's spelling column, R147). `short` is `$nn`, `long` is `$nnnn`. -/
inductive OperandText where
  | none | acc | imm (v : Byte) | short (z : Byte) | shortX (z : Byte) | shortY (z : Byte)
  | long (a : Addr) | longX (a : Addr) | longY (a : Addr) | ind (a : Addr) | indX (z : Byte) | indY (z : Byte)
  | label (target : Addr)
  deriving DecidableEq, Repr

/-- One assembler line: a mnemonic and the spelling of its operand (R147). -/
structure AsmLine where
  mnemonic : Mnemonic
  operand  : OperandText
  deriving DecidableEq, Repr

end Sys2Proof
end

