-- ==== Sys2Proof/WellFormed.lean ====
section
/-! DEFINITION. Which addressing modes each mnemonic has (the Operands line of each rule of spec/41 to 46), and the checks an
assembler line must pass (R147). The operands of `Instr` are of exactly the width of their encoding, so its only check is that its
mnemonic has its mode. -/

namespace Sys2Proof

/-- The modes of each mnemonic, from the Operands and Encoding lines of its rule. -/
def Mnemonic.modes : Mnemonic → List Mode
  | .lda => [.imm, .zp, .zpx, .abs, .absx, .absy, .indx, .indy]  -- R211
  | .ldx => [.imm, .zp, .zpy, .abs, .absy]  -- R212
  | .ldy => [.imm, .zp, .zpx, .abs, .absx]  -- R213
  | .sta => [.zp, .zpx, .abs, .absx, .absy, .indx, .indy]  -- R214
  | .stx => [.zp, .zpy, .abs]  -- R215
  | .sty => [.zp, .zpx, .abs]  -- R216
  | .tax => [.imp]  -- R231
  | .tay => [.imp]  -- R232
  | .tsx => [.imp]  -- R233
  | .txa => [.imp]  -- R234
  | .txs => [.imp]  -- R235
  | .tya => [.imp]  -- R236
  | .pha => [.imp]  -- R237
  | .php => [.imp]  -- R238
  | .pla => [.imp]  -- R239
  | .plp => [.imp]  -- R240
  | .adc => [.imm, .zp, .zpx, .abs, .absx, .absy, .indx, .indy]  -- R251
  | .sbc => [.imm, .zp, .zpx, .abs, .absx, .absy, .indx, .indy]  -- R252
  | .cmp => [.imm, .zp, .zpx, .abs, .absx, .absy, .indx, .indy]  -- R255
  | .cpx => [.imm, .zp, .abs]  -- R256
  | .cpy => [.imm, .zp, .abs]  -- R257
  | .inc => [.zp, .zpx, .abs, .absx]  -- R258
  | .dec => [.zp, .zpx, .abs, .absx]  -- R259
  | .inx => [.imp]  -- R260
  | .iny => [.imp]  -- R261
  | .dex => [.imp]  -- R262
  | .dey => [.imp]  -- R263
  | .and => [.imm, .zp, .zpx, .abs, .absx, .absy, .indx, .indy]  -- R281
  | .ora => [.imm, .zp, .zpx, .abs, .absx, .absy, .indx, .indy]  -- R282
  | .eor => [.imm, .zp, .zpx, .abs, .absx, .absy, .indx, .indy]  -- R283
  | .bit => [.zp, .abs]  -- R284
  | .asl => [.acc, .zp, .zpx, .abs, .absx]  -- R285
  | .lsr => [.acc, .zp, .zpx, .abs, .absx]  -- R286
  | .rol => [.acc, .zp, .zpx, .abs, .absx]  -- R287
  | .ror => [.acc, .zp, .zpx, .abs, .absx]  -- R288
  | .jmp => [.abs, .ind]  -- R300
  | .jsr => [.abs]  -- R301
  | .rts => [.imp]  -- R302
  | .rti => [.imp]  -- R303
  | .brk => [.imp]  -- R304
  | .bcc => [.rel]  -- R306
  | .bcs => [.rel]  -- R307
  | .beq => [.rel]  -- R308
  | .bmi => [.rel]  -- R309
  | .bne => [.rel]  -- R310
  | .bpl => [.rel]  -- R311
  | .bvc => [.rel]  -- R312
  | .bvs => [.rel]  -- R313
  | .clc => [.imp]  -- R331
  | .cld => [.imp]  -- R332
  | .cli => [.imp]  -- R333
  | .clv => [.imp]  -- R334
  | .sec => [.imp]  -- R335
  | .sed => [.imp]  -- R336
  | .sei => [.imp]  -- R337
  | .nop => [.imp]  -- R338

/-- The mnemonic has a form in this mode (R144, R146: every other pair has no encoding). -/
def formLegal (m : Mnemonic) (md : Mode) : Bool := m.modes.contains md

/-- Check of an instruction: its mnemonic has its mode. -/
def Instr.wellFormed (i : Instr) : Bool := formLegal i.mnemonic i.mode

/-- The mode an operand spelling selects for a mnemonic: `$nn` the zero-page form, `$nnnn` the absolute form, a label the branch
form or the absolute form (R147). -/
def OperandText.mode (m : Mnemonic) : OperandText → Mode
  | .none => .imp
  | .acc => .acc
  | .imm _ => .imm
  | .short _ => .zp
  | .shortX _ => .zpx
  | .shortY _ => .zpy
  | .long _ => .abs
  | .longX _ => .absx
  | .longY _ => .absy
  | .ind _ => .ind
  | .indX _ => .indx
  | .indY _ => .indy
  | .label _ => if formLegal m .rel then .rel else .abs

/-- A branch from `pc` reaches `target`: the distance from `pc + 2` is a signed byte (R147, R159). -/
def branchReaches (pc target : Addr) : Bool :=
  let d := (target - (pc + 2)).toInt
  decide (-128 ≤ d) && decide (d ≤ 127)

/-- Check of an assembler line at address `pc`: the spelled mode exists for the mnemonic, and a branch reaches its label. -/
def AsmLine.wellFormed (pc : Addr) (l : AsmLine) : Bool :=
  formLegal l.mnemonic (l.operand.mode l.mnemonic) &&
    match l.operand with
    | .label t => if formLegal l.mnemonic .rel then branchReaches pc t else true
    | _ => true

end Sys2Proof
end

