-- ==== Sys2Proof/Decode.lean ====
section
/-! DEFINITION. The opcode table of spec/30_encoding.md R144 as data, the decoder, total on any bytes, the encoder, the
assembler of R147, and the byte-order helpers they use. -/

namespace Sys2Proof

/-- `hi ++ lo` of two bytes (R12). -/
def wordOf (hi lo : Byte) : Addr := hi ++ lo

/-- `lo(w) = w[7:0]` (R12). -/
def loByte (w : Addr) : Byte := w.extractLsb' 0 8

/-- `hi(w) = page(w) = w[15:8]` (R12). -/
def hiByte (w : Addr) : Byte := w.extractLsb' 8 8

/-- How an instruction is made from the operand bytes of its format (R141). -/
inductive Build where
  | implied (i : Instr)
  | byte (f : Byte → Instr)
  | word (f : Addr → Instr)

/-- How many operand bytes follow the opcode (R141). -/
def Build.operandBytes : Build → Nat
  | .implied _ => 0
  | .byte _ => 1
  | .word _ => 2

/-- One row of opcode_table.json. -/
structure OpRow where
  op       : Byte
  mnemonic : Mnemonic
  mode     : Mode
  build    : Build

/-- Row 0x of the opcode map (R144). -/
def opcodeRow0 : List OpRow := [
  ⟨0x00, .brk, .imp, .implied .brk⟩,
  ⟨0x01, .ora, .indx, .byte .oraIndx⟩,
  ⟨0x05, .ora, .zp, .byte .oraZp⟩,
  ⟨0x06, .asl, .zp, .byte .aslZp⟩,
  ⟨0x08, .php, .imp, .implied .php⟩,
  ⟨0x09, .ora, .imm, .byte .oraImm⟩,
  ⟨0x0A, .asl, .acc, .implied .aslAcc⟩,
  ⟨0x0D, .ora, .abs, .word .oraAbs⟩,
  ⟨0x0E, .asl, .abs, .word .aslAbs⟩]

/-- Row 1x of the opcode map (R144). -/
def opcodeRow1 : List OpRow := [
  ⟨0x10, .bpl, .rel, .byte .bpl⟩,
  ⟨0x11, .ora, .indy, .byte .oraIndy⟩,
  ⟨0x15, .ora, .zpx, .byte .oraZpx⟩,
  ⟨0x16, .asl, .zpx, .byte .aslZpx⟩,
  ⟨0x18, .clc, .imp, .implied .clc⟩,
  ⟨0x19, .ora, .absy, .word .oraAbsy⟩,
  ⟨0x1D, .ora, .absx, .word .oraAbsx⟩,
  ⟨0x1E, .asl, .absx, .word .aslAbsx⟩]

/-- Row 2x of the opcode map (R144). -/
def opcodeRow2 : List OpRow := [
  ⟨0x20, .jsr, .abs, .word .jsr⟩,
  ⟨0x21, .and, .indx, .byte .andIndx⟩,
  ⟨0x24, .bit, .zp, .byte .bitZp⟩,
  ⟨0x25, .and, .zp, .byte .andZp⟩,
  ⟨0x26, .rol, .zp, .byte .rolZp⟩,
  ⟨0x28, .plp, .imp, .implied .plp⟩,
  ⟨0x29, .and, .imm, .byte .andImm⟩,
  ⟨0x2A, .rol, .acc, .implied .rolAcc⟩,
  ⟨0x2C, .bit, .abs, .word .bitAbs⟩,
  ⟨0x2D, .and, .abs, .word .andAbs⟩,
  ⟨0x2E, .rol, .abs, .word .rolAbs⟩]

/-- Row 3x of the opcode map (R144). -/
def opcodeRow3 : List OpRow := [
  ⟨0x30, .bmi, .rel, .byte .bmi⟩,
  ⟨0x31, .and, .indy, .byte .andIndy⟩,
  ⟨0x35, .and, .zpx, .byte .andZpx⟩,
  ⟨0x36, .rol, .zpx, .byte .rolZpx⟩,
  ⟨0x38, .sec, .imp, .implied .sec⟩,
  ⟨0x39, .and, .absy, .word .andAbsy⟩,
  ⟨0x3D, .and, .absx, .word .andAbsx⟩,
  ⟨0x3E, .rol, .absx, .word .rolAbsx⟩]

/-- Row 4x of the opcode map (R144). -/
def opcodeRow4 : List OpRow := [
  ⟨0x40, .rti, .imp, .implied .rti⟩,
  ⟨0x41, .eor, .indx, .byte .eorIndx⟩,
  ⟨0x45, .eor, .zp, .byte .eorZp⟩,
  ⟨0x46, .lsr, .zp, .byte .lsrZp⟩,
  ⟨0x48, .pha, .imp, .implied .pha⟩,
  ⟨0x49, .eor, .imm, .byte .eorImm⟩,
  ⟨0x4A, .lsr, .acc, .implied .lsrAcc⟩,
  ⟨0x4C, .jmp, .abs, .word .jmpAbs⟩,
  ⟨0x4D, .eor, .abs, .word .eorAbs⟩,
  ⟨0x4E, .lsr, .abs, .word .lsrAbs⟩]

/-- Row 5x of the opcode map (R144). -/
def opcodeRow5 : List OpRow := [
  ⟨0x50, .bvc, .rel, .byte .bvc⟩,
  ⟨0x51, .eor, .indy, .byte .eorIndy⟩,
  ⟨0x55, .eor, .zpx, .byte .eorZpx⟩,
  ⟨0x56, .lsr, .zpx, .byte .lsrZpx⟩,
  ⟨0x58, .cli, .imp, .implied .cli⟩,
  ⟨0x59, .eor, .absy, .word .eorAbsy⟩,
  ⟨0x5D, .eor, .absx, .word .eorAbsx⟩,
  ⟨0x5E, .lsr, .absx, .word .lsrAbsx⟩]

/-- Row 6x of the opcode map (R144). -/
def opcodeRow6 : List OpRow := [
  ⟨0x60, .rts, .imp, .implied .rts⟩,
  ⟨0x61, .adc, .indx, .byte .adcIndx⟩,
  ⟨0x65, .adc, .zp, .byte .adcZp⟩,
  ⟨0x66, .ror, .zp, .byte .rorZp⟩,
  ⟨0x68, .pla, .imp, .implied .pla⟩,
  ⟨0x69, .adc, .imm, .byte .adcImm⟩,
  ⟨0x6A, .ror, .acc, .implied .rorAcc⟩,
  ⟨0x6C, .jmp, .ind, .word .jmpInd⟩,
  ⟨0x6D, .adc, .abs, .word .adcAbs⟩,
  ⟨0x6E, .ror, .abs, .word .rorAbs⟩]

/-- Row 7x of the opcode map (R144). -/
def opcodeRow7 : List OpRow := [
  ⟨0x70, .bvs, .rel, .byte .bvs⟩,
  ⟨0x71, .adc, .indy, .byte .adcIndy⟩,
  ⟨0x75, .adc, .zpx, .byte .adcZpx⟩,
  ⟨0x76, .ror, .zpx, .byte .rorZpx⟩,
  ⟨0x78, .sei, .imp, .implied .sei⟩,
  ⟨0x79, .adc, .absy, .word .adcAbsy⟩,
  ⟨0x7D, .adc, .absx, .word .adcAbsx⟩,
  ⟨0x7E, .ror, .absx, .word .rorAbsx⟩]

/-- Row 8x of the opcode map (R144). -/
def opcodeRow8 : List OpRow := [
  ⟨0x81, .sta, .indx, .byte .staIndx⟩,
  ⟨0x84, .sty, .zp, .byte .styZp⟩,
  ⟨0x85, .sta, .zp, .byte .staZp⟩,
  ⟨0x86, .stx, .zp, .byte .stxZp⟩,
  ⟨0x88, .dey, .imp, .implied .dey⟩,
  ⟨0x8A, .txa, .imp, .implied .txa⟩,
  ⟨0x8C, .sty, .abs, .word .styAbs⟩,
  ⟨0x8D, .sta, .abs, .word .staAbs⟩,
  ⟨0x8E, .stx, .abs, .word .stxAbs⟩]

/-- Row 9x of the opcode map (R144). -/
def opcodeRow9 : List OpRow := [
  ⟨0x90, .bcc, .rel, .byte .bcc⟩,
  ⟨0x91, .sta, .indy, .byte .staIndy⟩,
  ⟨0x94, .sty, .zpx, .byte .styZpx⟩,
  ⟨0x95, .sta, .zpx, .byte .staZpx⟩,
  ⟨0x96, .stx, .zpy, .byte .stxZpy⟩,
  ⟨0x98, .tya, .imp, .implied .tya⟩,
  ⟨0x99, .sta, .absy, .word .staAbsy⟩,
  ⟨0x9A, .txs, .imp, .implied .txs⟩,
  ⟨0x9D, .sta, .absx, .word .staAbsx⟩]

/-- Row Ax of the opcode map (R144). -/
def opcodeRowA : List OpRow := [
  ⟨0xA0, .ldy, .imm, .byte .ldyImm⟩,
  ⟨0xA1, .lda, .indx, .byte .ldaIndx⟩,
  ⟨0xA2, .ldx, .imm, .byte .ldxImm⟩,
  ⟨0xA4, .ldy, .zp, .byte .ldyZp⟩,
  ⟨0xA5, .lda, .zp, .byte .ldaZp⟩,
  ⟨0xA6, .ldx, .zp, .byte .ldxZp⟩,
  ⟨0xA8, .tay, .imp, .implied .tay⟩,
  ⟨0xA9, .lda, .imm, .byte .ldaImm⟩,
  ⟨0xAA, .tax, .imp, .implied .tax⟩,
  ⟨0xAC, .ldy, .abs, .word .ldyAbs⟩,
  ⟨0xAD, .lda, .abs, .word .ldaAbs⟩,
  ⟨0xAE, .ldx, .abs, .word .ldxAbs⟩]

/-- Row Bx of the opcode map (R144). -/
def opcodeRowB : List OpRow := [
  ⟨0xB0, .bcs, .rel, .byte .bcs⟩,
  ⟨0xB1, .lda, .indy, .byte .ldaIndy⟩,
  ⟨0xB4, .ldy, .zpx, .byte .ldyZpx⟩,
  ⟨0xB5, .lda, .zpx, .byte .ldaZpx⟩,
  ⟨0xB6, .ldx, .zpy, .byte .ldxZpy⟩,
  ⟨0xB8, .clv, .imp, .implied .clv⟩,
  ⟨0xB9, .lda, .absy, .word .ldaAbsy⟩,
  ⟨0xBA, .tsx, .imp, .implied .tsx⟩,
  ⟨0xBC, .ldy, .absx, .word .ldyAbsx⟩,
  ⟨0xBD, .lda, .absx, .word .ldaAbsx⟩,
  ⟨0xBE, .ldx, .absy, .word .ldxAbsy⟩]

/-- Row Cx of the opcode map (R144). -/
def opcodeRowC : List OpRow := [
  ⟨0xC0, .cpy, .imm, .byte .cpyImm⟩,
  ⟨0xC1, .cmp, .indx, .byte .cmpIndx⟩,
  ⟨0xC4, .cpy, .zp, .byte .cpyZp⟩,
  ⟨0xC5, .cmp, .zp, .byte .cmpZp⟩,
  ⟨0xC6, .dec, .zp, .byte .decZp⟩,
  ⟨0xC8, .iny, .imp, .implied .iny⟩,
  ⟨0xC9, .cmp, .imm, .byte .cmpImm⟩,
  ⟨0xCA, .dex, .imp, .implied .dex⟩,
  ⟨0xCC, .cpy, .abs, .word .cpyAbs⟩,
  ⟨0xCD, .cmp, .abs, .word .cmpAbs⟩,
  ⟨0xCE, .dec, .abs, .word .decAbs⟩]

/-- Row Dx of the opcode map (R144). -/
def opcodeRowD : List OpRow := [
  ⟨0xD0, .bne, .rel, .byte .bne⟩,
  ⟨0xD1, .cmp, .indy, .byte .cmpIndy⟩,
  ⟨0xD5, .cmp, .zpx, .byte .cmpZpx⟩,
  ⟨0xD6, .dec, .zpx, .byte .decZpx⟩,
  ⟨0xD8, .cld, .imp, .implied .cld⟩,
  ⟨0xD9, .cmp, .absy, .word .cmpAbsy⟩,
  ⟨0xDD, .cmp, .absx, .word .cmpAbsx⟩,
  ⟨0xDE, .dec, .absx, .word .decAbsx⟩]

/-- Row Ex of the opcode map (R144). -/
def opcodeRowE : List OpRow := [
  ⟨0xE0, .cpx, .imm, .byte .cpxImm⟩,
  ⟨0xE1, .sbc, .indx, .byte .sbcIndx⟩,
  ⟨0xE4, .cpx, .zp, .byte .cpxZp⟩,
  ⟨0xE5, .sbc, .zp, .byte .sbcZp⟩,
  ⟨0xE6, .inc, .zp, .byte .incZp⟩,
  ⟨0xE8, .inx, .imp, .implied .inx⟩,
  ⟨0xE9, .sbc, .imm, .byte .sbcImm⟩,
  ⟨0xEA, .nop, .imp, .implied .nop⟩,
  ⟨0xEC, .cpx, .abs, .word .cpxAbs⟩,
  ⟨0xED, .sbc, .abs, .word .sbcAbs⟩,
  ⟨0xEE, .inc, .abs, .word .incAbs⟩]

/-- Row Fx of the opcode map (R144). -/
def opcodeRowF : List OpRow := [
  ⟨0xF0, .beq, .rel, .byte .beq⟩,
  ⟨0xF1, .sbc, .indy, .byte .sbcIndy⟩,
  ⟨0xF5, .sbc, .zpx, .byte .sbcZpx⟩,
  ⟨0xF6, .inc, .zpx, .byte .incZpx⟩,
  ⟨0xF8, .sed, .imp, .implied .sed⟩,
  ⟨0xF9, .sbc, .absy, .word .sbcAbsy⟩,
  ⟨0xFD, .sbc, .absx, .word .sbcAbsx⟩,
  ⟨0xFE, .inc, .absx, .word .incAbsx⟩]

/-- The 151 rows of the opcode map (R144). -/
def opcodeTable : List OpRow :=
  opcodeRow0 ++ opcodeRow1 ++ opcodeRow2 ++ opcodeRow3 ++ opcodeRow4 ++ opcodeRow5 ++ opcodeRow6 ++ opcodeRow7 ++
  opcodeRow8 ++ opcodeRow9 ++ opcodeRowA ++ opcodeRowB ++ opcodeRowC ++ opcodeRowD ++ opcodeRowE ++ opcodeRowF

/-- The row of a mnemonic in a mode. -/
def lookupForm (m : Mnemonic) (md : Mode) : Option Build :=
  (opcodeTable.find? fun r => decide (r.mnemonic = m) && decide (r.mode = md)).map (·.build)

/-- One row of an ISA_TABLE (R20): an opcode byte, and the form of the instruction it stands for. -/
structure IsaRow where
  op       : Byte
  mnemonic : Mnemonic
  mode     : Mode
  deriving DecidableEq, Repr

/-- ISA_TABLE's default, the 151 rows of R144 (R10). -/
def defaultIsa : List IsaRow := opcodeTable.map fun r => { op := r.op, mnemonic := r.mnemonic, mode := r.mode }

/-- `decode(op)` of R140 by a table: `none` for a byte that no row has (R145), or whose row names a form that no rule of
spec/41 to 46 has (log 9). -/
def lookupOp (isa : List IsaRow) (op : Byte) : Option Build :=
  (isa.find? fun r => r.op == op).bind fun r => lookupForm r.mnemonic r.mode

/-- Why bytes are not an instruction. -/
inductive DecodeError where
  /-- there is no first byte -/
  | noBytes
  /-- the table has no instruction for the first byte: by the default table, one of the 105 bytes of R145 -/
  | illegalOpcode (op : Byte)
  /-- the operand bytes of R141 are not all there -/
  | truncated (op : Byte)
  deriving DecidableEq, Repr

/-- Decode the instruction at the head of a list of bytes by a table, and answer the bytes after it. The operand of a 3-byte
instruction is little-endian (R141). -/
def decodeWith (isa : List IsaRow) : List Byte → Except DecodeError (Instr × List Byte)
  | [] => .error .noBytes
  | op :: bs =>
    match lookupOp isa op with
    | none => .error (.illegalOpcode op)
    | some (.implied i) => .ok (i, bs)
    | some (.byte f) =>
      match bs with
      | b :: rest => .ok (f b, rest)
      | [] => .error (.truncated op)
    | some (.word f) =>
      match bs with
      | l :: h :: rest => .ok (f (wordOf h l), rest)
      | _ => .error (.truncated op)

/-- Decode by the default table. -/
def decodeBytes (bs : List Byte) : Except DecodeError (Instr × List Byte) := decodeWith defaultIsa bs

/-- The bytes of an instruction (R141, R144). -/
def encode : Instr → List Byte
  | .brk => [0x00]
  | .oraIndx z => [0x01, z]
  | .oraZp z => [0x05, z]
  | .aslZp z => [0x06, z]
  | .php => [0x08]
  | .oraImm v => [0x09, v]
  | .aslAcc => [0x0A]
  | .oraAbs a => [0x0D, loByte a, hiByte a]
  | .aslAbs a => [0x0E, loByte a, hiByte a]
  | .bpl off => [0x10, off]
  | .oraIndy z => [0x11, z]
  | .oraZpx z => [0x15, z]
  | .aslZpx z => [0x16, z]
  | .clc => [0x18]
  | .oraAbsy a => [0x19, loByte a, hiByte a]
  | .oraAbsx a => [0x1D, loByte a, hiByte a]
  | .aslAbsx a => [0x1E, loByte a, hiByte a]
  | .jsr a => [0x20, loByte a, hiByte a]
  | .andIndx z => [0x21, z]
  | .bitZp z => [0x24, z]
  | .andZp z => [0x25, z]
  | .rolZp z => [0x26, z]
  | .plp => [0x28]
  | .andImm v => [0x29, v]
  | .rolAcc => [0x2A]
  | .bitAbs a => [0x2C, loByte a, hiByte a]
  | .andAbs a => [0x2D, loByte a, hiByte a]
  | .rolAbs a => [0x2E, loByte a, hiByte a]
  | .bmi off => [0x30, off]
  | .andIndy z => [0x31, z]
  | .andZpx z => [0x35, z]
  | .rolZpx z => [0x36, z]
  | .sec => [0x38]
  | .andAbsy a => [0x39, loByte a, hiByte a]
  | .andAbsx a => [0x3D, loByte a, hiByte a]
  | .rolAbsx a => [0x3E, loByte a, hiByte a]
  | .rti => [0x40]
  | .eorIndx z => [0x41, z]
  | .eorZp z => [0x45, z]
  | .lsrZp z => [0x46, z]
  | .pha => [0x48]
  | .eorImm v => [0x49, v]
  | .lsrAcc => [0x4A]
  | .jmpAbs a => [0x4C, loByte a, hiByte a]
  | .eorAbs a => [0x4D, loByte a, hiByte a]
  | .lsrAbs a => [0x4E, loByte a, hiByte a]
  | .bvc off => [0x50, off]
  | .eorIndy z => [0x51, z]
  | .eorZpx z => [0x55, z]
  | .lsrZpx z => [0x56, z]
  | .cli => [0x58]
  | .eorAbsy a => [0x59, loByte a, hiByte a]
  | .eorAbsx a => [0x5D, loByte a, hiByte a]
  | .lsrAbsx a => [0x5E, loByte a, hiByte a]
  | .rts => [0x60]
  | .adcIndx z => [0x61, z]
  | .adcZp z => [0x65, z]
  | .rorZp z => [0x66, z]
  | .pla => [0x68]
  | .adcImm v => [0x69, v]
  | .rorAcc => [0x6A]
  | .jmpInd a => [0x6C, loByte a, hiByte a]
  | .adcAbs a => [0x6D, loByte a, hiByte a]
  | .rorAbs a => [0x6E, loByte a, hiByte a]
  | .bvs off => [0x70, off]
  | .adcIndy z => [0x71, z]
  | .adcZpx z => [0x75, z]
  | .rorZpx z => [0x76, z]
  | .sei => [0x78]
  | .adcAbsy a => [0x79, loByte a, hiByte a]
  | .adcAbsx a => [0x7D, loByte a, hiByte a]
  | .rorAbsx a => [0x7E, loByte a, hiByte a]
  | .staIndx z => [0x81, z]
  | .styZp z => [0x84, z]
  | .staZp z => [0x85, z]
  | .stxZp z => [0x86, z]
  | .dey => [0x88]
  | .txa => [0x8A]
  | .styAbs a => [0x8C, loByte a, hiByte a]
  | .staAbs a => [0x8D, loByte a, hiByte a]
  | .stxAbs a => [0x8E, loByte a, hiByte a]
  | .bcc off => [0x90, off]
  | .staIndy z => [0x91, z]
  | .styZpx z => [0x94, z]
  | .staZpx z => [0x95, z]
  | .stxZpy z => [0x96, z]
  | .tya => [0x98]
  | .staAbsy a => [0x99, loByte a, hiByte a]
  | .txs => [0x9A]
  | .staAbsx a => [0x9D, loByte a, hiByte a]
  | .ldyImm v => [0xA0, v]
  | .ldaIndx z => [0xA1, z]
  | .ldxImm v => [0xA2, v]
  | .ldyZp z => [0xA4, z]
  | .ldaZp z => [0xA5, z]
  | .ldxZp z => [0xA6, z]
  | .tay => [0xA8]
  | .ldaImm v => [0xA9, v]
  | .tax => [0xAA]
  | .ldyAbs a => [0xAC, loByte a, hiByte a]
  | .ldaAbs a => [0xAD, loByte a, hiByte a]
  | .ldxAbs a => [0xAE, loByte a, hiByte a]
  | .bcs off => [0xB0, off]
  | .ldaIndy z => [0xB1, z]
  | .ldyZpx z => [0xB4, z]
  | .ldaZpx z => [0xB5, z]
  | .ldxZpy z => [0xB6, z]
  | .clv => [0xB8]
  | .ldaAbsy a => [0xB9, loByte a, hiByte a]
  | .tsx => [0xBA]
  | .ldyAbsx a => [0xBC, loByte a, hiByte a]
  | .ldaAbsx a => [0xBD, loByte a, hiByte a]
  | .ldxAbsy a => [0xBE, loByte a, hiByte a]
  | .cpyImm v => [0xC0, v]
  | .cmpIndx z => [0xC1, z]
  | .cpyZp z => [0xC4, z]
  | .cmpZp z => [0xC5, z]
  | .decZp z => [0xC6, z]
  | .iny => [0xC8]
  | .cmpImm v => [0xC9, v]
  | .dex => [0xCA]
  | .cpyAbs a => [0xCC, loByte a, hiByte a]
  | .cmpAbs a => [0xCD, loByte a, hiByte a]
  | .decAbs a => [0xCE, loByte a, hiByte a]
  | .bne off => [0xD0, off]
  | .cmpIndy z => [0xD1, z]
  | .cmpZpx z => [0xD5, z]
  | .decZpx z => [0xD6, z]
  | .cld => [0xD8]
  | .cmpAbsy a => [0xD9, loByte a, hiByte a]
  | .cmpAbsx a => [0xDD, loByte a, hiByte a]
  | .decAbsx a => [0xDE, loByte a, hiByte a]
  | .cpxImm v => [0xE0, v]
  | .sbcIndx z => [0xE1, z]
  | .cpxZp z => [0xE4, z]
  | .sbcZp z => [0xE5, z]
  | .incZp z => [0xE6, z]
  | .inx => [0xE8]
  | .sbcImm v => [0xE9, v]
  | .nop => [0xEA]
  | .cpxAbs a => [0xEC, loByte a, hiByte a]
  | .sbcAbs a => [0xED, loByte a, hiByte a]
  | .incAbs a => [0xEE, loByte a, hiByte a]
  | .beq off => [0xF0, off]
  | .sbcIndy z => [0xF1, z]
  | .sbcZpx z => [0xF5, z]
  | .incZpx z => [0xF6, z]
  | .sed => [0xF8]
  | .sbcAbsy a => [0xF9, loByte a, hiByte a]
  | .sbcAbsx a => [0xFD, loByte a, hiByte a]
  | .incAbsx a => [0xFE, loByte a, hiByte a]

/-- The three bytes an opcode-table word stands for, the first byte its bits 7..0; the bits above `nbits` are 0. -/
def tableWordBytes (nbits w : Nat) : List Byte :=
  let v := w % 2 ^ nbits
  [BitVec.ofNat 8 v, BitVec.ofNat 8 (v / 2 ^ 8), BitVec.ofNat 8 (v / 2 ^ 16)]

/-- The instruction the decoder reads from an opcode-table word. -/
def decodeTableWord (nbits w : Nat) : Option Instr :=
  match decodeBytes (tableWordBytes nbits w) with
  | .ok (i, _) => some i
  | .error _ => none

/-- The operand value an assembler line gives, as 16 bits; a branch label gives `target - (PC + 2)` (R147). -/
def OperandText.value (m : Mnemonic) (pc : Addr) : OperandText → Addr
  | .none | .acc => 0
  | .imm b | .short b | .shortX b | .shortY b | .indX b | .indY b => b.setWidth 16
  | .long a | .longX a | .longY a | .ind a => a
  | .label t => if formLegal m .rel then t - (pc + 2) else t

/-- Assemble one line at address `pc` (R147). A line that is not well-formed is refused. -/
def assemble (pc : Addr) (l : AsmLine) : Option Instr :=
  if l.wellFormed pc then
    (lookupForm l.mnemonic (l.operand.mode l.mnemonic)).map fun
      | .implied i => i
      | .byte f => f (loByte (l.operand.value l.mnemonic pc))
      | .word f => f (l.operand.value l.mnemonic pc)
  else none

end Sys2Proof
end

