-- ==== Sys2Proof/Config.lean ====
section
/-! DEFINITION. The fixed sizes of the disk image (R10), and the free values of the spec: draws (R16), power-on values (R522)
and ROM contents (R45). A free value is an opaque constant: no proof can see what it is. -/

namespace Sys2Proof.Config

/-- NUM_TRACKS of R10 (spec/63_disk_image.md R490). -/
def numTracks : Nat := 35

/-- SECTOR_SIZE of R10 (R490). -/
def sectorSize : Nat := 256

/-- The n-th draw of a run (R16): a byte the model does not fix. FREE VALUE, log 4. -/
opaque draw : Nat → Byte

/-- ROM_BASIC, 8192 bytes, contents OPEN (R45). FREE VALUE, log 3. -/
opaque romBasic : BitVec 13 → Byte

/-- ROM_KERNAL, 8192 bytes, contents OPEN (R45). FREE VALUE, log 3. -/
opaque romKernal : BitVec 13 → Byte

/-- ROM_CHAR, 4096 bytes, contents OPEN (R45). FREE VALUE, log 3. -/
opaque romChar : BitVec 12 → Byte

/-- INITIAL_RAM: what a byte of RAM holds at power-on (R43). FREE VALUE, log 2. -/
opaque initialRam : Addr → Byte

/-- INITIAL_COLOR_RAM: what a colour cell holds at power-on (R44). FREE VALUE, log 2. -/
opaque initialColorRam : BitVec 10 → Byte

/-- INITIAL_A (R30). FREE VALUE, log 1. -/
opaque initialA : Byte

/-- INITIAL_X (R30). FREE VALUE, log 1. -/
opaque initialX : Byte

/-- INITIAL_Y (R30). FREE VALUE, log 1. -/
opaque initialY : Byte

/-- INITIAL_FLAGS, N (R33). FREE VALUE, log 1. -/
opaque initialN : Bool

/-- INITIAL_FLAGS, V (R33). FREE VALUE, log 1. -/
opaque initialV : Bool

/-- INITIAL_FLAGS, D (R33). FREE VALUE, log 1. -/
opaque initialD : Bool

/-- INITIAL_FLAGS, Z (R33). FREE VALUE, log 1. -/
opaque initialZ : Bool

/-- INITIAL_FLAGS, C (R33). FREE VALUE, log 1. -/
opaque initialC : Bool

end Sys2Proof.Config
end

