-- ==== Sys2Proof/Machine/Cycles.lean ====
section
/-! DEFINITION. The Config of a machine (spec/00_scope.md R20) as plain data: the instruction table, the illegal opcode policy, the cycle
table (spec/30_encoding.md R160) and the raster geometry (spec/62_video_chip.md R440), each with its default. The ROM images of R20 are
constants of Config.lean, and the breakpoint stands with the engine. -/

namespace Sys2Proof.Machine

/-- One row of a CYCLE_TABLE: the base count of an instruction form, what a page crossing adds, and what taking a branch adds (R160). -/
structure CycleRow where
  mnemonic : Mnemonic
  mode     : Mode
  base     : Nat
  crossed  : Nat
  taken    : Nat
  deriving DecidableEq, Repr

/-- ILLEGAL_OPCODE_POLICY (R10): the spec gives it one value, `fault`. -/
inductive IllegalPolicy where
  | fault
  deriving DecidableEq, Repr

/-- CYCLES_PER_LINE and LINES_PER_FRAME (R440). -/
structure Geometry where
  cyclesPerLine : Nat
  linesPerFrame : Nat
  deriving DecidableEq, Repr

/-- The values the rules hold for are positive (R440). -/
def Geometry.valid (g : Geometry) : Bool := decide (0 < g.cyclesPerLine) && decide (0 < g.linesPerFrame)

/-- The Config of a machine (R20), fixed at launch: no step and no host event writes it (log 9). -/
structure MachineConfig where
  isa      : List IsaRow
  illegal  : IllegalPolicy
  cycles   : List CycleRow
  geometry : Geometry
  deriving DecidableEq, Repr

/-- The cycle row of an instruction form; a form with no row reports no cycle (log 9). -/
def MachineConfig.cycleRow (g : MachineConfig) (m : Mnemonic) (md : Mode) : CycleRow :=
  (g.cycles.find? fun r => decide (r.mnemonic = m) && decide (r.mode = md)).getD
    { mnemonic := m, mode := md, base := 0, crossed := 0, taken := 0 }

/-! ### The defaults -/

/-- The cycles of row 0x of the opcode map (R160). -/
def cycleRow0 : List CycleRow := [
  ⟨.brk, .imp, 7, 0, 0⟩, ⟨.ora, .indx, 6, 0, 0⟩, ⟨.ora, .zp, 3, 0, 0⟩, ⟨.asl, .zp, 5, 0, 0⟩, ⟨.php, .imp, 3, 0, 0⟩,
  ⟨.ora, .imm, 2, 0, 0⟩, ⟨.asl, .acc, 2, 0, 0⟩, ⟨.ora, .abs, 4, 0, 0⟩, ⟨.asl, .abs, 6, 0, 0⟩]

/-- The cycles of row 1x of the opcode map (R160). -/
def cycleRow1 : List CycleRow := [
  ⟨.bpl, .rel, 2, 1, 1⟩, ⟨.ora, .indy, 5, 1, 0⟩, ⟨.ora, .zpx, 4, 0, 0⟩, ⟨.asl, .zpx, 6, 0, 0⟩, ⟨.clc, .imp, 2, 0, 0⟩,
  ⟨.ora, .absy, 4, 1, 0⟩, ⟨.ora, .absx, 4, 1, 0⟩, ⟨.asl, .absx, 7, 0, 0⟩]

/-- The cycles of row 2x of the opcode map (R160). -/
def cycleRow2 : List CycleRow := [
  ⟨.jsr, .abs, 6, 0, 0⟩, ⟨.and, .indx, 6, 0, 0⟩, ⟨.bit, .zp, 3, 0, 0⟩, ⟨.and, .zp, 3, 0, 0⟩, ⟨.rol, .zp, 5, 0, 0⟩,
  ⟨.plp, .imp, 4, 0, 0⟩, ⟨.and, .imm, 2, 0, 0⟩, ⟨.rol, .acc, 2, 0, 0⟩, ⟨.bit, .abs, 4, 0, 0⟩, ⟨.and, .abs, 4, 0, 0⟩,
  ⟨.rol, .abs, 6, 0, 0⟩]

/-- The cycles of row 3x of the opcode map (R160). -/
def cycleRow3 : List CycleRow := [
  ⟨.bmi, .rel, 2, 1, 1⟩, ⟨.and, .indy, 5, 1, 0⟩, ⟨.and, .zpx, 4, 0, 0⟩, ⟨.rol, .zpx, 6, 0, 0⟩, ⟨.sec, .imp, 2, 0, 0⟩,
  ⟨.and, .absy, 4, 1, 0⟩, ⟨.and, .absx, 4, 1, 0⟩, ⟨.rol, .absx, 7, 0, 0⟩]

/-- The cycles of row 4x of the opcode map (R160). -/
def cycleRow4 : List CycleRow := [
  ⟨.rti, .imp, 6, 0, 0⟩, ⟨.eor, .indx, 6, 0, 0⟩, ⟨.eor, .zp, 3, 0, 0⟩, ⟨.lsr, .zp, 5, 0, 0⟩, ⟨.pha, .imp, 3, 0, 0⟩,
  ⟨.eor, .imm, 2, 0, 0⟩, ⟨.lsr, .acc, 2, 0, 0⟩, ⟨.jmp, .abs, 3, 0, 0⟩, ⟨.eor, .abs, 4, 0, 0⟩, ⟨.lsr, .abs, 6, 0, 0⟩]

/-- The cycles of row 5x of the opcode map (R160). -/
def cycleRow5 : List CycleRow := [
  ⟨.bvc, .rel, 2, 1, 1⟩, ⟨.eor, .indy, 5, 1, 0⟩, ⟨.eor, .zpx, 4, 0, 0⟩, ⟨.lsr, .zpx, 6, 0, 0⟩, ⟨.cli, .imp, 2, 0, 0⟩,
  ⟨.eor, .absy, 4, 1, 0⟩, ⟨.eor, .absx, 4, 1, 0⟩, ⟨.lsr, .absx, 7, 0, 0⟩]

/-- The cycles of row 6x of the opcode map (R160). -/
def cycleRow6 : List CycleRow := [
  ⟨.rts, .imp, 6, 0, 0⟩, ⟨.adc, .indx, 6, 0, 0⟩, ⟨.adc, .zp, 3, 0, 0⟩, ⟨.ror, .zp, 5, 0, 0⟩, ⟨.pla, .imp, 4, 0, 0⟩,
  ⟨.adc, .imm, 2, 0, 0⟩, ⟨.ror, .acc, 2, 0, 0⟩, ⟨.jmp, .ind, 5, 0, 0⟩, ⟨.adc, .abs, 4, 0, 0⟩, ⟨.ror, .abs, 6, 0, 0⟩]

/-- The cycles of row 7x of the opcode map (R160). -/
def cycleRow7 : List CycleRow := [
  ⟨.bvs, .rel, 2, 1, 1⟩, ⟨.adc, .indy, 5, 1, 0⟩, ⟨.adc, .zpx, 4, 0, 0⟩, ⟨.ror, .zpx, 6, 0, 0⟩, ⟨.sei, .imp, 2, 0, 0⟩,
  ⟨.adc, .absy, 4, 1, 0⟩, ⟨.adc, .absx, 4, 1, 0⟩, ⟨.ror, .absx, 7, 0, 0⟩]

/-- The cycles of row 8x of the opcode map (R160). -/
def cycleRow8 : List CycleRow := [
  ⟨.sta, .indx, 6, 0, 0⟩, ⟨.sty, .zp, 3, 0, 0⟩, ⟨.sta, .zp, 3, 0, 0⟩, ⟨.stx, .zp, 3, 0, 0⟩, ⟨.dey, .imp, 2, 0, 0⟩,
  ⟨.txa, .imp, 2, 0, 0⟩, ⟨.sty, .abs, 4, 0, 0⟩, ⟨.sta, .abs, 4, 0, 0⟩, ⟨.stx, .abs, 4, 0, 0⟩]

/-- The cycles of row 9x of the opcode map (R160). -/
def cycleRow9 : List CycleRow := [
  ⟨.bcc, .rel, 2, 1, 1⟩, ⟨.sta, .indy, 6, 0, 0⟩, ⟨.sty, .zpx, 4, 0, 0⟩, ⟨.sta, .zpx, 4, 0, 0⟩, ⟨.stx, .zpy, 4, 0, 0⟩,
  ⟨.tya, .imp, 2, 0, 0⟩, ⟨.sta, .absy, 5, 0, 0⟩, ⟨.txs, .imp, 2, 0, 0⟩, ⟨.sta, .absx, 5, 0, 0⟩]

/-- The cycles of row Ax of the opcode map (R160). -/
def cycleRowA : List CycleRow := [
  ⟨.ldy, .imm, 2, 0, 0⟩, ⟨.lda, .indx, 6, 0, 0⟩, ⟨.ldx, .imm, 2, 0, 0⟩, ⟨.ldy, .zp, 3, 0, 0⟩, ⟨.lda, .zp, 3, 0, 0⟩,
  ⟨.ldx, .zp, 3, 0, 0⟩, ⟨.tay, .imp, 2, 0, 0⟩, ⟨.lda, .imm, 2, 0, 0⟩, ⟨.tax, .imp, 2, 0, 0⟩, ⟨.ldy, .abs, 4, 0, 0⟩,
  ⟨.lda, .abs, 4, 0, 0⟩, ⟨.ldx, .abs, 4, 0, 0⟩]

/-- The cycles of row Bx of the opcode map (R160). -/
def cycleRowB : List CycleRow := [
  ⟨.bcs, .rel, 2, 1, 1⟩, ⟨.lda, .indy, 5, 1, 0⟩, ⟨.ldy, .zpx, 4, 0, 0⟩, ⟨.lda, .zpx, 4, 0, 0⟩, ⟨.ldx, .zpy, 4, 0, 0⟩,
  ⟨.clv, .imp, 2, 0, 0⟩, ⟨.lda, .absy, 4, 1, 0⟩, ⟨.tsx, .imp, 2, 0, 0⟩, ⟨.ldy, .absx, 4, 1, 0⟩, ⟨.lda, .absx, 4, 1, 0⟩,
  ⟨.ldx, .absy, 4, 1, 0⟩]

/-- The cycles of row Cx of the opcode map (R160). -/
def cycleRowC : List CycleRow := [
  ⟨.cpy, .imm, 2, 0, 0⟩, ⟨.cmp, .indx, 6, 0, 0⟩, ⟨.cpy, .zp, 3, 0, 0⟩, ⟨.cmp, .zp, 3, 0, 0⟩, ⟨.dec, .zp, 5, 0, 0⟩,
  ⟨.iny, .imp, 2, 0, 0⟩, ⟨.cmp, .imm, 2, 0, 0⟩, ⟨.dex, .imp, 2, 0, 0⟩, ⟨.cpy, .abs, 4, 0, 0⟩, ⟨.cmp, .abs, 4, 0, 0⟩,
  ⟨.dec, .abs, 6, 0, 0⟩]

/-- The cycles of row Dx of the opcode map (R160). -/
def cycleRowD : List CycleRow := [
  ⟨.bne, .rel, 2, 1, 1⟩, ⟨.cmp, .indy, 5, 1, 0⟩, ⟨.cmp, .zpx, 4, 0, 0⟩, ⟨.dec, .zpx, 6, 0, 0⟩, ⟨.cld, .imp, 2, 0, 0⟩,
  ⟨.cmp, .absy, 4, 1, 0⟩, ⟨.cmp, .absx, 4, 1, 0⟩, ⟨.dec, .absx, 7, 0, 0⟩]

/-- The cycles of row Ex of the opcode map (R160). -/
def cycleRowE : List CycleRow := [
  ⟨.cpx, .imm, 2, 0, 0⟩, ⟨.sbc, .indx, 6, 0, 0⟩, ⟨.cpx, .zp, 3, 0, 0⟩, ⟨.sbc, .zp, 3, 0, 0⟩, ⟨.inc, .zp, 5, 0, 0⟩,
  ⟨.inx, .imp, 2, 0, 0⟩, ⟨.sbc, .imm, 2, 0, 0⟩, ⟨.nop, .imp, 2, 0, 0⟩, ⟨.cpx, .abs, 4, 0, 0⟩, ⟨.sbc, .abs, 4, 0, 0⟩,
  ⟨.inc, .abs, 6, 0, 0⟩]

/-- The cycles of row Fx of the opcode map (R160). -/
def cycleRowF : List CycleRow := [
  ⟨.beq, .rel, 2, 1, 1⟩, ⟨.sbc, .indy, 5, 1, 0⟩, ⟨.sbc, .zpx, 4, 0, 0⟩, ⟨.inc, .zpx, 6, 0, 0⟩, ⟨.sed, .imp, 2, 0, 0⟩,
  ⟨.sbc, .absy, 4, 1, 0⟩, ⟨.sbc, .absx, 4, 1, 0⟩, ⟨.inc, .absx, 7, 0, 0⟩]

/-- CYCLE_TABLE's default (R160). -/
def defaultCycles : List CycleRow :=
  cycleRow0 ++ cycleRow1 ++ cycleRow2 ++ cycleRow3 ++ cycleRow4 ++ cycleRow5 ++ cycleRow6 ++ cycleRow7 ++
  cycleRow8 ++ cycleRow9 ++ cycleRowA ++ cycleRowB ++ cycleRowC ++ cycleRowD ++ cycleRowE ++ cycleRowF

/-- The default raster geometry, PAL (R440). -/
def defaultGeometry : Geometry := { cyclesPerLine := 63, linesPerFrame := 312 }

/-- The default Config (R10, R20). -/
def defaultConfig : MachineConfig where
  isa := defaultIsa
  illegal := .fault
  cycles := defaultCycles
  geometry := defaultGeometry

end Sys2Proof.Machine
end

