-- ==== Sys2Proof/Machine/State.lean ====
section
/-! DEFINITION. The machine state as plain data: the record of spec/10_state.md R53, grouped as R53 groups it, with the
configuration a step reads beside it, and the reset state of spec/70_reset_and_hazards.md R522. -/

namespace Sys2Proof.Machine

/-- Sparse storage: (address, byte) pairs, addresses strictly rising. An address that is not listed has never been written. -/
abbrev Memory := List Host.Cell

/-- The six stored flags (R33). The break bit and bit 5 of the status byte are not stored. -/
structure Flags where
  n : Bool
  v : Bool
  d : Bool
  i : Bool
  z : Bool
  c : Bool
  deriving DecidableEq, Repr

/-- The CPU registers (R30 to R33). `sp` is S of R31. -/
structure Cpu where
  a  : Byte
  x  : Byte
  y  : Byte
  sp : Byte
  pc : Addr
  p  : Flags
  deriving DecidableEq, Repr

/-- The fault record a step can leave in `status` (spec/60_exceptions.md R357). -/
inductive FaultRecord where
  /-- FLT-1 IllegalOpcode(pc, op): the Config's table has no instruction for the opcode byte at PC (R145) -/
  | illegalOpcode (pc : Addr) (op : Byte)
  deriving DecidableEq, Repr

/-- Run status (R36). -/
inductive RunStatus where
  | running
  | halted (pc : Addr)
  | faulted (f : FaultRecord)
  deriving DecidableEq, Repr

/-- Engine state: run status, the breakpoint fixed at launch (R37), the cycle counter (R39), the NMI sampler (R46). -/
structure Engine where
  status     : RunStatus
  breakpoint : Option Addr
  cycles     : Nat
  nmiPrev    : Bool
  nmiPending : Bool
  deriving DecidableEq, Repr

/-- BankState (R40): the port latch and the two cartridge lines, `true` for a line level of 1. -/
structure BankState where
  latch : Byte
  game  : Bool
  exrom : Bool
  deriving DecidableEq, Repr

/-- An attached cartridge (R42). -/
structure Cart where
  image : List Byte
  load  : Addr
  game  : Bool
  exrom : Bool
  name  : String
  deriving DecidableEq, Repr

/-- The bus: bank state, cartridge, RAM (R43) and colour RAM (R44). -/
structure Bus where
  bank     : BankState
  cart     : Option Cart
  ram      : Memory
  colorRam : Memory
  deriving DecidableEq, Repr

/-- The identity of a timer chip (R47, R390). -/
inductive CiaId where
  | cia1 | cia2
  deriving DecidableEq, Repr

/-- A timer chip (R47). -/
structure Cia where
  id       : CiaId
  pra      : Byte
  prb      : Byte
  ddra     : Byte
  ddrb     : Byte
  ta       : BitVec 16
  tb       : BitVec 16
  taLatch  : BitVec 16
  tbLatch  : BitVec 16
  cra      : Byte
  crb      : Byte
  icrFlags : BitVec 5
  icrMask  : BitVec 5
  deriving DecidableEq, Repr

/-- CIA1's input state (R48): `keys[c][r]` is true while the key at column c, row r is held; the joystick bits are up, down, left,
right, fire from bit 0. -/
structure CiaInput where
  keys : Vector (Vector Bool 8) 8
  joy1 : BitVec 5
  joy2 : BitVec 5
  deriving DecidableEq, Repr

/-- The video chip (R49). `regs` is REG[0x00..0x2E]. -/
structure Vic where
  rasterLine    : Nat
  rasterCycle   : Nat
  regs          : Vector Byte 47
  rasterCompare : BitVec 9
  irqFlags      : BitVec 4
  irqEnable     : BitVec 4
  badlineEnable : Bool
  frame         : Nat
  deriving DecidableEq, Repr

/-- The model's own fields: `draws` counts the draws taken (R16, log 4); `reported` holds the cycles the executing instruction has
reported (spec/40_engine.md R184) until the step notifies them, and is 0 between steps (log 5). -/
structure Aux where
  draws    : Nat
  reported : Nat
  deriving DecidableEq, Repr

/-- The whole machine state (R53), and the Config that every step reads and none writes (R20, R53; log 9). -/
structure State where
  config : MachineConfig
  cpu    : Cpu
  engine : Engine
  bus    : Bus
  cia1   : Cia
  cia2   : Cia
  input  : CiaInput
  vic    : Vic
  aux    : Aux
  deriving DecidableEq, Repr

/-- Why `step` stops with no next state: no step is defined unless status is Running (spec/40_engine.md R181, R195; log 7). -/
inductive Fault where
  /-- raised by `step` in a state whose status is Halted(pc) (R183); safe: the spec defines no step there -/
  | stoppedHalted (pc : Addr)
  /-- raised by `step` in a state whose status is Faulted(f) (R351); safe: the spec defines no step there -/
  | stoppedFaulted (f : FaultRecord)
  deriving DecidableEq, Repr

/-- Why an instruction has no meaning in the model. -/
inductive Refusal where
  /-- raised by an arm of `exec` whose instruction has no meaning yet; safe. No arm raises it: every instruction has its meaning. -/
  | notModelled (mnemonic : String)
  deriving DecidableEq, Repr

/-- The reset state of a timer chip (spec/61_timer_chip.md R430). -/
def Cia.reset (id : CiaId) : Cia where
  id := id
  pra := 0x00#8
  prb := 0x00#8
  ddra := 0x00#8
  ddrb := 0x00#8
  ta := 0xFFFF#16
  tb := 0xFFFF#16
  taLatch := 0xFFFF#16
  tbLatch := 0xFFFF#16
  cra := 0x00#8
  crb := 0x00#8
  icrFlags := 0#5
  icrMask := 0#5

/-- The reset state of the video chip (spec/62_video_chip.md R460). -/
def Vic.reset : Vic where
  rasterLine := 0
  rasterCycle := 0
  regs := Vector.replicate 47 0x00#8
  rasterCompare := 0#9
  irqFlags := 0#4
  irqEnable := 0#4
  badlineEnable := false
  frame := 0

/-- No key held, both joysticks at rest (R48). -/
def CiaInput.reset : CiaInput where
  keys := Vector.replicate 8 (Vector.replicate 8 false)
  joy1 := 0#5
  joy2 := 0#5

/-- The machine right after a launch with the default Config, no breakpoint and no cartridge (R20, R522). PC is the word at 0xFFFC under
the reset bank state, which is ROM_KERNAL[0x1FFD] ++ ROM_KERNAL[0x1FFC] (R521). A, X, Y and N, V, D, Z, C are free constants (log 1). -/
def State.reset : State where
  config := defaultConfig
  cpu :=
    { a := Config.initialA, x := Config.initialX, y := Config.initialY, sp := 0xFD#8,
      pc := Config.romKernal 0x1FFD#13 ++ Config.romKernal 0x1FFC#13,
      p := { n := Config.initialN, v := Config.initialV, d := Config.initialD, i := true, z := Config.initialZ,
             c := Config.initialC } }
  engine := { status := .running, breakpoint := none, cycles := 0, nmiPrev := false, nmiPending := false }
  bus := { bank := { latch := 0x37#8, game := true, exrom := true }, cart := none, ram := [], colorRam := [] }
  cia1 := Cia.reset .cia1
  cia2 := Cia.reset .cia2
  input := CiaInput.reset
  vic := Vic.reset
  aux := { draws := 0, reported := 0 }

end Sys2Proof.Machine
end

