-- ==== Sys2Proof/Machine/Cia.lean ====
section
/-! DEFINITION. The timer chips (spec/61_timer_chip.md): registers, timers, interrupt output, ports. -/

namespace Sys2Proof.Machine

/-- A byte from its bits, `f i` being bit i. -/
def byteOfBits (f : Fin 8 → Bool) : Byte :=
  BitVec.ofBool (f 7) ++ BitVec.ofBool (f 6) ++ BitVec.ofBool (f 5) ++ BitVec.ofBool (f 4) ++
  BitVec.ofBool (f 3) ++ BitVec.ofBool (f 2) ++ BitVec.ofBool (f 1) ++ BitVec.ofBool (f 0)

/-- CiaIRQ, the interrupt output, a level (R410). -/
def Cia.irq (c : Cia) : Bool := (c.icrFlags &&& c.icrMask) != 0#5

/-- PAeff = PRA | ~DDRA (R420). -/
def Cia.paEff (c : Cia) : Byte := c.pra ||| ~~~c.ddra

/-- PBeff = PRB | ~DDRB (R420). -/
def Cia.pbEff (c : Cia) : Byte := c.prb ||| ~~~c.ddrb

/-- Some held key connects column `c` to a row whose port B line is driven low (R421). -/
def columnPulled (inp : CiaInput) (pb : Byte) (c : Fin 8) : Bool :=
  (List.finRange 8).any fun r => inp.keys[c][r] && !pb.getLsbD r

/-- Some held key connects row `r` to a column whose port A line is driven low (R421). -/
def rowPulled (inp : CiaInput) (pa : Byte) (r : Fin 8) : Bool :=
  (List.finRange 8).any fun c => inp.keys[c][r] && !pa.getLsbD c

/-- The port A pins: CIA1's with the keyboard and joystick 2 (R421), CIA2's unconnected (R422). -/
def Cia.portA (inp : CiaInput) (c : Cia) : Byte :=
  match c.id with
  | .cia1 => byteOfBits fun k => c.paEff.getLsbD k && !columnPulled inp c.pbEff k && !inp.joy2.getLsbD k
  | .cia2 => c.paEff

/-- The port B pins: CIA1's with the keyboard and joystick 1 (R421), CIA2's unconnected (R422). -/
def Cia.portB (inp : CiaInput) (c : Cia) : Byte :=
  match c.id with
  | .cia1 => byteOfBits fun k => c.pbEff.getLsbD k && !rowPulled inp c.paEff k && !inp.joy1.getLsbD k
  | .cia2 => c.pbEff

/-- What a read of ICR returns: the output in bit 7, the flags in bits 4:0, bits 6:5 zero (R409). -/
def Cia.icrByte (c : Cia) : Byte := BitVec.ofBool c.irq ++ 0#2 ++ c.icrFlags

/-- CiaRegRead, the value (R392). `none` is a draw. -/
def Cia.regRead (inp : CiaInput) (i : BitVec 4) (c : Cia) : Option Byte :=
  match i.toNat with
  | 0x0 => some (c.portA inp)
  | 0x1 => some (c.portB inp)
  | 0x2 => some c.ddra
  | 0x3 => some c.ddrb
  | 0x4 => some (loByte c.ta)
  | 0x5 => some (hiByte c.ta)
  | 0x6 => some (loByte c.tb)
  | 0x7 => some (hiByte c.tb)
  | 0xD => some c.icrByte
  | 0xE => some c.cra
  | 0xF => some c.crb
  | _ => none

/-- CiaRegRead, the side effect: a read of ICR clears the flags (R409). -/
def Cia.afterRead (i : BitVec 4) (c : Cia) : Cia :=
  if i = 0xD#4 then { c with icrFlags := 0#5 } else c

/-- CiaRegWrite (R393). -/
def Cia.regWrite (i : BitVec 4) (v : Byte) (c : Cia) : Cia :=
  match i.toNat with
  | 0x0 => { c with pra := v }
  | 0x1 => { c with prb := v }
  | 0x2 => { c with ddra := v }
  | 0x3 => { c with ddrb := v }
  | 0x4 => { c with taLatch := wordOf (hiByte c.taLatch) v }
  | 0x5 =>
    let l := wordOf v (loByte c.taLatch)
    { c with taLatch := l, ta := if c.cra.getLsbD 0 then c.ta else l }
  | 0x6 => { c with tbLatch := wordOf (hiByte c.tbLatch) v }
  | 0x7 =>
    let l := wordOf v (loByte c.tbLatch)
    { c with tbLatch := l, tb := if c.crb.getLsbD 0 then c.tb else l }
  | 0xD =>
    let m := v.extractLsb' 0 5
    { c with icrMask := if v.getLsbD 7 then c.icrMask ||| m else c.icrMask &&& ~~~m }
  | 0xE => { c with cra := v &&& 0xEF#8, ta := if v.getLsbD 4 then c.taLatch else c.ta }
  | 0xF => { c with crb := v &&& 0xEF#8, tb := if v.getLsbD 4 then c.tbLatch else c.tb }
  | _ => c

/-- Timer A is started and counts phi2 (R400, R403). -/
def Cia.countsA (c : Cia) : Bool := c.cra.getLsbD 0 && !c.cra.getLsbD 5

/-- Timer A underflows on this tick: it counts and stands at 0 (R400). -/
def Cia.underflowsA (c : Cia) : Bool := c.countsA && c.ta == 0#16

/-- The timer A half of a tick (R400). -/
def Cia.tickA (c : Cia) : Cia :=
  if c.underflowsA then
    { c with ta := c.taLatch, icrFlags := c.icrFlags ||| 1#5,
             cra := if c.cra.getLsbD 3 then c.cra &&& 0xFE#8 else c.cra }
  else if c.countsA then { c with ta := c.ta - 1#16 }
  else c

/-- Timer B counts this tick: started, and its input mode counts phi2 or timer A's underflow (R400, R402). -/
def Cia.countsB (uA : Bool) (c : Cia) : Bool :=
  c.crb.getLsbD 0 && (c.crb.extractLsb' 5 2 == 0#2 || (c.crb.getLsbD 6 && uA))

/-- The timer B half of a tick (R400). -/
def Cia.tickB (uA : Bool) (c : Cia) : Cia :=
  if c.countsB uA then
    if c.tb = 0#16 then
      { c with tb := c.tbLatch, icrFlags := c.icrFlags ||| 2#5,
               crb := if c.crb.getLsbD 3 then c.crb &&& 0xFE#8 else c.crb }
    else { c with tb := c.tb - 1#16 }
  else c

/-- CiaTick (R400): timer A, then timer B. -/
def Cia.tick (c : Cia) : Cia := c.tickA.tickB c.underflowsA

end Sys2Proof.Machine
end

