-- ==== Sys2Proof/Machine/Memory.lean ====
section
/-! DEFINITION. Sparse storage in one canonical form: addresses strictly rising, all below a bound. An unlisted address has no stored
byte: what it reads as is the free power-on byte of `unwrittenRam` and `unwrittenColor` (log 2). -/

namespace Sys2Proof.Machine

/-- The byte stored at an address, if one is. -/
def Memory.find (k : Nat) : Memory → Option Byte
  | [] => none
  | (a, v) :: m => if a = k then some v else Memory.find k m

/-- Store a byte: the cell of the address is replaced, or a new cell is put in its place in the order. -/
def Memory.put (k : Nat) (v : Byte) : Memory → Memory
  | [] => [(k, v)]
  | (a, w) :: m =>
    if k < a then (k, v) :: (a, w) :: m
    else if k = a then (k, v) :: m
    else (a, w) :: Memory.put k v m

/-- Every address is at least `lo`, below `bound`, and above the one before it. -/
def Memory.rising (lo bound : Nat) : Memory → Bool
  | [] => true
  | (a, _) :: m => decide (lo ≤ a) && decide (a < bound) && Memory.rising (a + 1) bound m

/-- The canonical form: addresses strictly rising and below `bound`. -/
def Memory.wf (bound : Nat) (m : Memory) : Bool := Memory.rising 0 bound m

/-- What a RAM byte that nothing has written reads as: the power-on draw of R43 (log 2). -/
def unwrittenRam (a : Addr) : Byte := Config.initialRam a

/-- What a colour cell that nothing has written reads as: the power-on draw of R44 (log 2). -/
def unwrittenColor (i : BitVec 10) : Byte := Config.initialColorRam i

/-- RAM[a] (R43). -/
def ramByte (a : Addr) (m : Memory) : Byte := (Memory.find a.toNat m).getD (unwrittenRam a)

/-- COLOR_RAM[i] (R44): the whole stored byte. -/
def colorCell (i : BitVec 10) (m : Memory) : Byte := (Memory.find i.toNat m).getD (unwrittenColor i)

end Sys2Proof.Machine
end

