-- ==== Sys2Proof/Machine/Update.lean ====
section
/-! DEFINITION. The named updates of State: each writes one field and leaves every other (spec/00_scope.md R13). -/

namespace Sys2Proof.Machine

def State.setA (s : State) (v : Byte) : State := { s with cpu.a := v }

def State.setX (s : State) (v : Byte) : State := { s with cpu.x := v }

def State.setY (s : State) (v : Byte) : State := { s with cpu.y := v }

def State.setSp (s : State) (v : Byte) : State := { s with cpu.sp := v }

def State.setPc (s : State) (v : Addr) : State := { s with cpu.pc := v }

def State.setP (s : State) (p : Flags) : State := { s with cpu.p := p }

def State.setStatus (s : State) (r : RunStatus) : State := { s with engine.status := r }

def State.setCycles (s : State) (n : Nat) : State := { s with engine.cycles := n }

def State.setNmiPrev (s : State) (b : Bool) : State := { s with engine.nmiPrev := b }

def State.setNmiPending (s : State) (b : Bool) : State := { s with engine.nmiPending := b }

def State.setLatch (s : State) (v : Byte) : State := { s with bus.bank.latch := v }

def State.setRam (s : State) (m : Memory) : State := { s with bus.ram := m }

def State.setColorRam (s : State) (m : Memory) : State := { s with bus.colorRam := m }

def State.setCia1 (s : State) (c : Cia) : State := { s with cia1 := c }

def State.setCia2 (s : State) (c : Cia) : State := { s with cia2 := c }

def State.setVic (s : State) (v : Vic) : State := { s with vic := v }

def State.setInput (s : State) (i : CiaInput) : State := { s with input := i }

def State.setDraws (s : State) (n : Nat) : State := { s with aux.draws := n }

def State.setReported (s : State) (n : Nat) : State := { s with aux.reported := n }

end Sys2Proof.Machine
end

