-- ==== Sys2Proof/Machine/Vic.lean ====
section
/-! DEFINITION. The video chip (spec/62_video_chip.md): cycle advance, registers, interrupt output, badlines. -/

namespace Sys2Proof.Machine

/-- VicIRQ, the interrupt output, a level (R448). -/
def Vic.irq (v : Vic) : Bool := (v.irqFlags &&& v.irqEnable) != 0#4

/-- REG[i] (R442). -/
def Vic.reg (i : Nat) (v : Vic) : Byte := v.regs[i]?.getD 0#8

/-- REG[i] <- b. -/
def Vic.setReg (i : Nat) (b : Byte) (v : Vic) : Vic := { v with regs := v.regs.setIfInBounds i b }

/-- VicRegRead (R441). `none` is a draw. -/
def Vic.regRead (i : BitVec 6) (v : Vic) : Option Byte :=
  let n := i.toNat
  if n = 0x11 then some (BitVec.ofBool (v.rasterLine.testBit 8) ++ (v.reg 0x11).extractLsb' 0 7)
  else if n = 0x12 then some (BitVec.ofNat 8 v.rasterLine)
  else if n = 0x13 ∨ n = 0x14 ∨ n = 0x1E ∨ n = 0x1F then none
  else if n = 0x16 then some (v.reg 0x16 ||| 0xC0#8)
  else if n = 0x18 then some (v.reg 0x18 ||| 0x01#8)
  else if n = 0x19 then some (BitVec.ofBool v.irq ++ 0b111#3 ++ v.irqFlags)
  else if n = 0x1A then some (0xF#4 ++ v.irqEnable)
  else if 0x2F ≤ n then some 0xFF#8
  else if 0x20 ≤ n then some (v.reg n ||| 0xF0#8)
  else some (v.reg n)

/-- VicRegWrite (R441, R447). -/
def Vic.regWrite (i : BitVec 6) (b : Byte) (v : Vic) : Vic :=
  let n := i.toNat
  if n = 0x11 then
    { v.setReg 0x11 (b &&& 0x7F#8) with
      rasterCompare := BitVec.ofBool (b.getLsbD 7) ++ v.rasterCompare.extractLsb' 0 8 }
  else if n = 0x12 then { v with rasterCompare := v.rasterCompare.extractLsb' 8 1 ++ b }
  else if n = 0x13 ∨ n = 0x14 ∨ n = 0x1E ∨ n = 0x1F then v
  else if n = 0x19 then { v with irqFlags := v.irqFlags &&& ~~~(b.extractLsb' 0 4) }
  else if n = 0x1A then { v with irqEnable := b.extractLsb' 0 4 }
  else if 0x2F ≤ n then v
  else v.setReg n b

/-- A raster line is a badline (R455). -/
def Vic.badline (line : Nat) (v : Vic) : Bool :=
  decide (0x30 ≤ line) && decide (line ≤ 0xF7) &&
    BitVec.ofNat 3 line == (v.reg 0x11).extractLsb' 0 3 && v.badlineEnable

/-- LineStart (R450), less FetchRow, which changes no state (R456; log 11). -/
def Vic.lineStart (v : Vic) : Vic :=
  { v with
    badlineEnable := v.badlineEnable || (v.rasterLine == 0x30 && (v.reg 0x11).getLsbD 4)
    irqFlags := if v.rasterLine = v.rasterCompare.toNat then v.irqFlags ||| 1#4 else v.irqFlags }

/-- The end of a line (R450): the next line, or line 0 of the next frame. -/
def Vic.nextLine (g : Geometry) (v : Vic) : Vic :=
  if v.rasterLine + 1 = g.linesPerFrame then
    { v with rasterCycle := 0, rasterLine := 0, frame := v.frame + 1, badlineEnable := false }
  else { v with rasterCycle := 0, rasterLine := v.rasterLine + 1 }

/-- VicTick under a raster geometry (R440, R450). -/
def Vic.tick (g : Geometry) (v : Vic) : Vic :=
  if v.rasterCycle + 1 = g.cyclesPerLine then (v.nextLine g).lineStart
  else { v with rasterCycle := v.rasterCycle + 1 }

/-- The video matrix base (R457). -/
def Vic.matrixBase (v : Vic) : BitVec 14 := (v.reg 0x18).extractLsb' 4 4 ++ 0#10

/-- The character generator base (R457). -/
def Vic.charBase (v : Vic) : BitVec 14 := (v.reg 0x18).extractLsb' 1 3 ++ 0#11

end Sys2Proof.Machine
end

