-- ==== Sys2Proof/Machine/Bus.lean ====
section
/-! DEFINITION. The memory bus (spec/20_memory.md): region resolution, the I/O window, one CPU read and one CPU write. -/

namespace Sys2Proof.Machine

/-- The regions of R100. -/
inductive Region where
  | ram | basic | kernal | char | io | roml | romh | unmapped
  deriving DecidableEq, Repr

/-- U of R101: the Ultimax configuration, EXROM = 1 and GAME = 0. -/
def BankState.ultimax (b : BankState) : Bool := b.exrom && !b.game

/-- The region visible at an address under a bank state (R101). -/
def resolve (a : Addr) (b : BankState) : Region :=
  let n := a.toNat
  let l := b.latch.getLsbD 0
  let h := b.latch.getLsbD 1
  let c := b.latch.getLsbD 2
  let g := b.game
  let e := b.exrom
  let u := b.ultimax
  if n < 0x1000 then .ram
  else if n < 0x8000 then (if u then .unmapped else .ram)
  else if n < 0xA000 then
    (if u then .roml else if !e && l && h then .roml else .ram)
  else if n < 0xC000 then
    (if u then .unmapped
     else if g && l && h then .basic
     else if !e && !g && h then .romh
     else .ram)
  else if n < 0xD000 then (if u then .unmapped else .ram)
  else if n < 0xE000 then
    (if u then .io
     else if g then (if l || h then (if c then .io else .char) else .ram)
     else if c then (if l || h then .io else .ram)
     else (if h then .char else .ram))
  else (if u then .romh else if h then .kernal else .ram)

/-- The targets of the I/O window (R103). -/
inductive IoTarget where
  | vic (i : BitVec 6)
  | sound
  | color (i : BitVec 10)
  | cia1 (i : BitVec 4)
  | cia2 (i : BitVec 4)
  | expansion
  deriving DecidableEq, Repr

/-- What an address of the I/O window selects, and its register index (R103). -/
def ioTarget (a : Addr) : IoTarget :=
  let n := a.toNat
  if n < 0xD400 then .vic (a.setWidth 6)
  else if n < 0xD800 then .sound
  else if n < 0xDC00 then .color ((a - 0xD800#16).setWidth 10)
  else if n < 0xDD00 then .cia1 (a.setWidth 4)
  else if n < 0xDE00 then .cia2 (a.setWidth 4)
  else .expansion

/-- cartByte(a) (R105). `none` is a draw: no cartridge, or an address the image does not cover. -/
def cartByte (a : Addr) (cart : Option Cart) : Option Byte :=
  match cart with
  | none => none
  | some c => if c.load.toNat ≤ a.toNat then c.image[a.toNat - c.load.toNat]? else none

/-- The value of a read of the I/O window (R110). `none` is a draw. -/
def ioRead (a : Addr) (s : State) : Option Byte :=
  match ioTarget a with
  | .vic i => s.vic.regRead i
  | .sound => none
  | .color i => some (colorCell i s.bus.colorRam)
  | .cia1 i => s.cia1.regRead s.input i
  | .cia2 i => s.cia2.regRead s.input i
  | .expansion => none

/-- Where the value of a CPU read comes from (R91, R104, R110): the byte there, or `none` where the read is a draw. -/
def busSource (a : Addr) (s : State) : Option Byte :=
  if a = 0x0001#16 then some s.bus.bank.latch
  else match resolve a s.bus.bank with
    | .ram => some (ramByte a s.bus.ram)
    | .basic => some (Config.romBasic ((a - 0xA000#16).setWidth 13))
    | .kernal => some (Config.romKernal ((a - 0xE000#16).setWidth 13))
    | .char => some (Config.romChar ((a - 0xD000#16).setWidth 12))
    | .roml => cartByte a s.bus.cart
    | .romh => cartByte a s.bus.cart
    | .unmapped => none
    | .io => ioRead a s

/-- The byte a CPU read of `a` returns; an open one is the next draw (R16). -/
def busByte (a : Addr) (s : State) : Byte := (busSource a s).getD (Config.draw s.aux.draws)

/-- The device effect of a CPU read (R111): a read of a visible ICR clears that chip's flags. -/
def readEffect (a : Addr) (s : State) : State :=
  if a = 0x0001#16 then s
  else match resolve a s.bus.bank with
    | .io =>
      match ioTarget a with
      | .cia1 i => s.setCia1 (s.cia1.afterRead i)
      | .cia2 i => s.setCia2 (s.cia2.afterRead i)
      | _ => s
    | _ => s

/-- The state a CPU read of `a` leaves: its device effect, and one more draw taken where its value is one. -/
def afterRead (a : Addr) (s : State) : State :=
  match busSource a s with
  | none => (readEffect a s).setDraws (s.aux.draws + 1)
  | some _ => readEffect a s

/-- MemRead(a, 1) (R110). -/
def memRead (a : Addr) (s : State) : Byte × State := (busByte a s, afterRead a s)

/-- A write to the I/O window (R112). -/
def ioWrite (a : Addr) (v : Byte) (s : State) : State :=
  match ioTarget a with
  | .vic i => s.setVic (s.vic.regWrite i v)
  | .sound => s
  | .color i => s.setColorRam (Memory.put i.toNat v s.bus.colorRam)
  | .cia1 i => s.setCia1 (s.cia1.regWrite i v)
  | .cia2 i => s.setCia2 (s.cia2.regWrite i v)
  | .expansion => s

/-- RAM[a] <- v. -/
def ramWrite (a : Addr) (v : Byte) (s : State) : State := s.setRam (Memory.put a.toNat v s.bus.ram)

/-- MemWrite(a, 1, v) (R90, R112): the latch, a device, the RAM underneath, or nothing. -/
def memWrite (a : Addr) (v : Byte) (s : State) : State :=
  if a = 0x0001#16 then s.setLatch v
  else match resolve a s.bus.bank with
    | .io => ioWrite a v s
    | .unmapped => s
    | .roml => if s.bus.bank.ultimax then s else ramWrite a v s
    | .romh => if s.bus.bank.ultimax then s else ramWrite a v s
    | .ram | .basic | .kernal | .char => ramWrite a v s

/-- MemRead16(a): the low byte first, then the high byte at a + 1 mod 2^16 (R14). -/
def memRead16 (a : Addr) (s : State) : Addr × State :=
  let lo := memRead a s
  let hi := memRead (a + 1#16) lo.2
  (wordOf hi.1 lo.1, hi.2)

/-- ZpRead16(z): both bytes in the zero page, the low byte first (R14). -/
def zpRead16 (z : Byte) (s : State) : Addr × State :=
  let lo := memRead (z.setWidth 16) s
  let hi := memRead ((z + 1#8).setWidth 16) lo.2
  (wordOf hi.1 lo.1, hi.2)

end Sys2Proof.Machine
end

