-- ==== Sys2Proof/Machine/Flags.lean ====
section
/-! DEFINITION. The flag computations: the status byte (spec/10_state.md R35), SetNZ (spec/41_load_store.md R210), the binary and
decimal laws of spec/43_arithmetic.md, and the shift carries of spec/44_logic_shift.md. -/

namespace Sys2Proof.Machine

/-- A flag as a number (R12's `bool`). -/
def bit01 (b : Bool) : Nat := if b then 1 else 0

/-- Pbyte(b), the status byte N V 1 B D I Z C (R35). -/
def Flags.pbyte (b : Bool) (p : Flags) : Byte :=
  BitVec.ofBool p.n ++ BitVec.ofBool p.v ++ BitVec.ofBool true ++ BitVec.ofBool b ++
  BitVec.ofBool p.d ++ BitVec.ofBool p.i ++ BitVec.ofBool p.z ++ BitVec.ofBool p.c

/-- The flags a pulled status byte loads; bits 5 and 4 are ignored (R35, R240, R303). -/
def Flags.ofPbyte (b : Byte) : Flags where
  n := b.getLsbD 7
  v := b.getLsbD 6
  d := b.getLsbD 3
  i := b.getLsbD 2
  z := b.getLsbD 1
  c := b.getLsbD 0

/-- SetNZ(v) (R210). -/
def Flags.setNZ (v : Byte) (p : Flags) : Flags := { p with n := v.getLsbD 7, z := v == 0#8 }

/-- What an addition or subtraction gives: the result and the four flags (R250). -/
structure AluResult where
  r : Byte
  n : Bool
  v : Bool
  z : Bool
  c : Bool
  deriving DecidableEq, Repr

/-- The four flags of an addition or subtraction are written; D and I are kept (R251, R252). -/
def Flags.setNVZC (x : AluResult) (p : Flags) : Flags := { p with n := x.n, v := x.v, z := x.z, c := x.c }

/-- AddBin(a, m, c) (R250). -/
def addBin (a m : Byte) (c : Bool) : AluResult :=
  let s := a.toNat + m.toNat + bit01 c
  let r : Byte := BitVec.ofNat 8 s
  { r := r, n := r.getLsbD 7, v := (~~~(a ^^^ m) &&& (a ^^^ r)).getLsbD 7, z := r == 0#8, c := decide (0xFF < s) }

/-- SubBin(a, m, c) = AddBin(a, ~m, c) (R250). -/
def subBin (a m : Byte) (c : Bool) : AluResult := addBin a (~~~m) c

/-- AdcDec(a, m, c), NMOS decimal addition (R253). -/
def adcDec (a m : Byte) (c : Bool) : AluResult :=
  let al0 := (a &&& 0x0F#8).toNat + (m &&& 0x0F#8).toNat + bit01 c
  let al := if 0x0A ≤ al0 then (al0 + 0x06) % 0x10 + 0x10 else al0
  let t := (a &&& 0xF0#8).toNat + (m &&& 0xF0#8).toNat + al
  let ts : Int := (a &&& 0xF0#8).toInt + (m &&& 0xF0#8).toInt + al
  let t' := if 0xA0 ≤ t then t + 0x60 else t
  { r := BitVec.ofNat 8 t', n := t.testBit 7, v := decide (ts < -128) || decide (127 < ts),
    z := (BitVec.ofNat 8 (a.toNat + m.toNat + bit01 c) : Byte) == 0#8, c := decide (0x100 ≤ t') }

/-- SbcDec(a, m, c), NMOS decimal subtraction: the flags are the binary ones (R254). -/
def sbcDec (a m : Byte) (c : Bool) : AluResult :=
  let al0 : Int := (a &&& 0x0F#8).toNat - (m &&& 0x0F#8).toNat + bit01 c - 1
  let al : Int := if al0 < 0 then (al0 - 0x06) % 0x10 - 0x10 else al0
  let t : Int := (a &&& 0xF0#8).toNat - (m &&& 0xF0#8).toNat + al
  let t' : Int := if t < 0 then t - 0x60 else t
  { subBin a m c with r := BitVec.ofInt 8 t' }

/-- The addition ADC does: binary or decimal by D (R251). -/
def adcResult (p : Flags) (a m : Byte) : AluResult := if p.d then adcDec a m p.c else addBin a m p.c

/-- The subtraction SBC does: binary or decimal by D (R252). -/
def sbcResult (p : Flags) (a m : Byte) : AluResult := if p.d then sbcDec a m p.c else subBin a m p.c

/-- The flags of a compare of register value `r` with `m` (R255 to R257). -/
def Flags.compare (r m : Byte) (p : Flags) : Flags :=
  { p with c := decide (m.toNat ≤ r.toNat), z := r == m, n := (r - m).getLsbD 7 }

/-- The flags of BIT (R284). -/
def Flags.bitTest (a m : Byte) (p : Flags) : Flags :=
  { p with z := (a &&& m) == 0#8, n := m.getLsbD 7, v := m.getLsbD 6 }

/-- ASL: the result and the carry (R285). -/
def aslByte (v : Byte) : Byte × Bool := (v <<< 1, v.getLsbD 7)

/-- LSR: the result and the carry (R286). -/
def lsrByte (v : Byte) : Byte × Bool := (v >>> 1, v.getLsbD 0)

/-- ROL with carry in `c`: the result and the carry (R287). -/
def rolByte (c : Bool) (v : Byte) : Byte × Bool := ((v <<< 1) ||| BitVec.ofNat 8 (bit01 c), v.getLsbD 7)

/-- ROR with carry in `c`: the result and the carry (R288). -/
def rorByte (c : Bool) (v : Byte) : Byte × Bool := ((v >>> 1) ||| (BitVec.ofNat 8 (bit01 c) <<< 7), v.getLsbD 0)

/-- The flags of a shift: the carry out, and N, Z of the result (R285 to R288). -/
def Flags.shift (x : Byte × Bool) (p : Flags) : Flags := { p.setNZ x.1 with c := x.2 }

end Sys2Proof.Machine
end

