-- ==== Sys2Proof/Machine/Ops.lean ====
section
/-! DEFINITION. The shared operations: flags and results into the CPU, the stack, ending an instruction, cycle notification, the NMI
sampler, taking an exception and returning from one, the interrupt poll (spec/00_scope.md R14, spec/40_engine.md, spec/60_exceptions.md). -/

namespace Sys2Proof.Machine

/-- SetNZ(v) on the machine (R210). -/
def State.setNZ (s : State) (v : Byte) : State := s.setP (s.cpu.p.setNZ v)

/-! ### The end of an instruction -/

/-- The cycles an instruction form consumes: its base count, and its penalty where its indexing crossed a page (R160, R184). -/
def instrCycles (m : Mnemonic) (md : Mode) (crossed : Bool) (s : State) : Nat :=
  (s.config.cycleRow m md).base + if crossed then (s.config.cycleRow m md).crossed else 0

/-- The cycles a taken branch consumes (R160). -/
def takenCycles (m : Mnemonic) (crossed : Bool) (s : State) : Nat :=
  instrCycles m .rel crossed s + (s.config.cycleRow m .rel).taken

/-- Not a control transfer: nextPC = PC + length, and the cycles reported (R184). -/
def retire (m : Mnemonic) (md : Mode) (crossed : Bool) (s : State) : State :=
  (s.setPc (s.cpu.pc + BitVec.ofNat 16 md.length)).setReported (instrCycles m md crossed s)

/-- A control transfer: nextPC = target, and the cycles reported (R184). -/
def jumpTo (target : Addr) (cycles : Nat) (s : State) : State := (s.setPc target).setReported cycles

/-! ### The stack -/

/-- The address 0x0100 + S (R31). -/
def stackAddr (sp : Byte) : Addr := wordOf 0x01#8 sp

/-- Push(v): write at 0x0100 + S, then S <- S - 1 (R14). -/
def push (v : Byte) (s : State) : State := (memWrite (stackAddr s.cpu.sp) v s).setSp (s.cpu.sp - 1#8)

/-- Pull(): S <- S + 1, then read at 0x0100 + S (R14). -/
def pull (s : State) : Byte × State := memRead (stackAddr (s.cpu.sp + 1#8)) (s.setSp (s.cpu.sp + 1#8))

/-- Push a 16-bit address, the high byte first (R114). -/
def pushWord (w : Addr) (s : State) : State := push (loByte w) (push (hiByte w) s)

/-- Pull a 16-bit address, the low byte first (R302, R303). -/
def pullWord (s : State) : Addr × State :=
  let lo := pull s
  let hi := pull lo.2
  (wordOf hi.1 lo.1, hi.2)

/-! ### Taking an exception, and returning from one -/

/-- What BRK, IRQ and NMI entry share (R304, R365): push the return address and the status byte with B = `brk`, set I, and load PC
from the vector through the bus. D is not changed. -/
def takeException (ret : Addr) (brk : Bool) (vector : Addr) (s : State) : State :=
  let s1 := pushWord ret s
  let s2 := push (s1.cpu.p.pbyte brk) s1
  let s3 := s2.setP { s2.cpu.p with i := true }
  let t := memRead16 vector s3
  t.2.setPc t.1

/-- What RTI does: pull the status byte into the six flags, then pull PC (R303). -/
def returnFromException (s : State) : State :=
  let b := pull s
  let s1 := b.2.setP (Flags.ofPbyte b.1)
  let t := pullWord s1
  t.2.setPc t.1

/-! ### The interrupt lines and the NMI sampler -/

/-- IRQLine() = CIA1.IRQ or VIC.IRQ (R360). -/
def irqLine (s : State) : Bool := s.cia1.irq || s.vic.irq

/-- NMILine() = CIA2.IRQ (R360). -/
def nmiLine (s : State) : Bool := s.cia2.irq

/-- SampleNMI() (R188): a rising edge sets nmiPending. -/
def sampleNmi (s : State) : State :=
  (s.setNmiPending (s.engine.nmiPending || (nmiLine s && !s.engine.nmiPrev))).setNmiPrev (nmiLine s)

/-! ### Cycle notification -/

/-- The cycle observers (R38). -/
inductive Observer where
  | cia1 | cia2 | vic
  deriving DecidableEq, Repr

/-- The observers in their fixed registration order (R38, R186). -/
def observers : List Observer := [.cia1, .cia2, .vic]

/-- One tick delivered to one observer (R196). -/
def Observer.tick (o : Observer) (s : State) : State :=
  match o with
  | .cia1 => s.setCia1 s.cia1.tick
  | .cia2 => s.setCia2 s.cia2.tick
  | .vic => s.setVic (s.vic.tick s.config.geometry)

/-- Every observer ticked once, in order. -/
def tickAll (s : State) : State := observers.foldl (fun t o => o.tick t) s

/-- One notified cycle: the ticks, the cycle counter, the NMI sample (R186). -/
def notifyCycle (s : State) : State :=
  let t := tickAll s
  sampleNmi (t.setCycles (t.engine.cycles + 1))

/-- Notify(c) (R186). -/
def notify : Nat → State → State
  | 0, s => s
  | c + 1, s => notify c (notifyCycle s)

/-! ### Interrupt entry and the poll -/

/-- The interrupts the poll takes (R364). -/
inductive InterruptKind where
  | nmi | irq
  deriving DecidableEq, Repr

/-- The vector address of an interrupt (R364). -/
def InterruptKind.vector : InterruptKind → Addr
  | .nmi => 0xFFFA#16
  | .irq => 0xFFFE#16

/-- InterruptEntry(k) (R365): the exception is taken with B = 0 from the PC, the NMI is sampled, 7 cycles are notified. -/
def interruptEntry (k : InterruptKind) (s : State) : State :=
  notify 7 (sampleNmi (takeException s.cpu.pc false k.vector s))

/-- Poll() (R187): a pending NMI first, else an active IRQ line with I = 0. -/
def poll (s : State) : State :=
  if s.engine.nmiPending then interruptEntry .nmi (s.setNmiPending false)
  else if irqLine s && !s.cpu.p.i then interruptEntry .irq s
  else s

/-- Phases 5 to 7 of a step (R181): sample the NMI, notify the reported cycles, poll. -/
def finishStep (s : State) : State :=
  poll (notify s.aux.reported (sampleNmi (s.setReported 0)))

/-! ### The ends of a step that run no instruction -/

/-- The breakpoint halt (R183). -/
def haltAtBreakpoint (s : State) : State := s.setStatus (.halted s.cpu.pc)

/-- An opcode byte that is no instruction, by the policy of the Config (R10, R352): `s` is the state after the opcode fetch. -/
def raiseIllegalOpcode (op : Byte) (s : State) : State :=
  match s.config.illegal with
  | .fault => s.setStatus (.faulted (.illegalOpcode s.cpu.pc op))

end Sys2Proof.Machine
end

