-- ==== Sys2Proof/Machine/Operands.lean ====
section
/-! DEFINITION. The effective addresses of spec/30_encoding.md R150 to R159, and the three ways an instruction uses one: read it,
write it, or read then write it (R149, R117). -/

namespace Sys2Proof.Machine

/-- `zext_16` of a zero-page byte (R12, R152). -/
def zeroPage (z : Byte) : Addr := z.setWidth 16

/-- A resolved memory operand: its effective address, whether indexing crossed a page, and the state its pointer reads left. -/
structure Operand where
  ea      : Addr
  crossed : Bool
  st      : State
  deriving DecidableEq, Repr

/-- ZP (R152). -/
def opZp (z : Byte) (s : State) : Operand := { ea := zeroPage z, crossed := false, st := s }

/-- ZPX (R153): the sum wraps in the zero page. -/
def opZpx (z : Byte) (s : State) : Operand := { ea := zeroPage (z + s.cpu.x), crossed := false, st := s }

/-- ZPY (R153). -/
def opZpy (z : Byte) (s : State) : Operand := { ea := zeroPage (z + s.cpu.y), crossed := false, st := s }

/-- ABS (R154). -/
def opAbs (a : Addr) (s : State) : Operand := { ea := a, crossed := false, st := s }

/-- A base indexed by a byte, mod 2^16, and whether the page changes (R155, R158). -/
def indexed (base : Addr) (i : Byte) (s : State) : Operand :=
  let ea := base + i.setWidth 16
  { ea := ea, crossed := hiByte base != hiByte ea, st := s }

/-- ABSX (R155). -/
def opAbsx (a : Addr) (s : State) : Operand := indexed a s.cpu.x s

/-- ABSY (R155). -/
def opAbsy (a : Addr) (s : State) : Operand := indexed a s.cpu.y s

/-- INDX (R157). -/
def opIndx (z : Byte) (s : State) : Operand :=
  let p := zpRead16 (z + s.cpu.x) s
  { ea := p.1, crossed := false, st := p.2 }

/-- INDY (R158). -/
def opIndy (z : Byte) (s : State) : Operand :=
  let p := zpRead16 z s
  indexed p.1 p.2.cpu.y p.2

/-- IND, JMP only (R156): the high byte of the target comes from the pointer's own page. -/
def indirectTarget (ptr : Addr) (s : State) : Addr × State :=
  let lo := memRead ptr s
  let hi := memRead (wordOf (hiByte ptr) (loByte ptr + 1#8)) lo.2
  (wordOf hi.1 lo.1, hi.2)

/-- `sext_8` of a branch offset, as a 16-bit displacement (R12, R159). -/
def branchOffset (off : Byte) : Addr := off.signExtend 16

/-- REL (R159): the target of a branch at `pc`. -/
def branchTarget (pc : Addr) (off : Byte) : Addr := pc + 2#16 + branchOffset off

/-- A read instruction: its operand is read once (R149) and `f` does the rest. -/
def readOperand (f : Byte → State → State) (o : Operand) : State := f (busByte o.ea o.st) (afterRead o.ea o.st)

/-- A whole read instruction: the read, then PC and cycles (R184). -/
def readRetire (m : Mnemonic) (md : Mode) (f : Byte → State → State) (o : Operand) : State :=
  retire m md o.crossed (readOperand f o)

/-- A store: one write, and the operand is not read (R149). -/
def storeOperand (v : Byte) (o : Operand) : State := memWrite o.ea v o.st

/-- A whole store: the write, then PC and cycles (R184). -/
def storeRetire (m : Mnemonic) (md : Mode) (v : Byte) (o : Operand) : State := retire m md o.crossed (storeOperand v o)

/-- A read-modify-write: one read, one write of the result, then the flags of the result (R117, R258, R280). -/
def modifyOperand (f : Flags → Byte → Byte) (g : Flags → Byte → Flags) (o : Operand) : State :=
  let v := busByte o.ea o.st
  let s := afterRead o.ea o.st
  (memWrite o.ea (f s.cpu.p v) s).setP (g s.cpu.p v)

/-- A whole read-modify-write: its read and write, then PC and cycles (R184). -/
def modifyRetire (m : Mnemonic) (md : Mode) (f : Flags → Byte → Byte) (g : Flags → Byte → Flags) (o : Operand) : State :=
  retire m md o.crossed (modifyOperand f g o)

end Sys2Proof.Machine
end

