-- ==== Sys2Proof/Machine/Arithmetic.lean ====
section
/-! DEFINITION. The arithmetic, compare, increment and decrement instructions (spec/43_arithmetic.md): one meaning for each row of the opcode table, over the shared operations below. -/

namespace Sys2Proof.Machine

/-- A result of ADC or SBC goes to A and the four flags (R251, R252). -/
def setAlu (x : AluResult) (s : State) : State := (s.setA x.r).setP (s.cpu.p.setNVZC x)

/-- ADC of a byte (R251). -/
def addA (m : Byte) (s : State) : State := setAlu (adcResult s.cpu.p s.cpu.a m) s

/-- SBC of a byte (R252). -/
def subA (m : Byte) (s : State) : State := setAlu (sbcResult s.cpu.p s.cpu.a m) s

/-- CMP with a byte (R255). -/
def compareA (m : Byte) (s : State) : State := s.setP (s.cpu.p.compare s.cpu.a m)

/-- CPX with a byte (R256). -/
def compareX (m : Byte) (s : State) : State := s.setP (s.cpu.p.compare s.cpu.x m)

/-- CPY with a byte (R257). -/
def compareY (m : Byte) (s : State) : State := s.setP (s.cpu.p.compare s.cpu.y m)

/-- The result of INC (R258). -/
def incByte (_ : Flags) (v : Byte) : Byte := v + 1#8

/-- The flags of INC (R258). -/
def incFlags (p : Flags) (v : Byte) : Flags := p.setNZ (v + 1#8)

/-- The result of DEC (R259). -/
def decByte (_ : Flags) (v : Byte) : Byte := v - 1#8

/-- The flags of DEC (R259). -/
def decFlags (p : Flags) (v : Byte) : Flags := p.setNZ (v - 1#8)

/-- ADC INDX, 0x61 (R251, R157). -/
def execAdcIndx (z : Byte) (s : State) : Host.Outcome State Fault Refusal := .next (readRetire .adc .indx addA (opIndx z s))

/-- ADC ZP, 0x65 (R251, R152). -/
def execAdcZp (z : Byte) (s : State) : Host.Outcome State Fault Refusal := .next (readRetire .adc .zp addA (opZp z s))

/-- ADC IMM, 0x69 (R251, R151). -/
def execAdcImm (v : Byte) (s : State) : Host.Outcome State Fault Refusal := .next (retire .adc .imm false (addA v s))

/-- ADC ABS, 0x6D (R251, R154). -/
def execAdcAbs (a : Addr) (s : State) : Host.Outcome State Fault Refusal := .next (readRetire .adc .abs addA (opAbs a s))

/-- ADC INDY, 0x71 (R251, R158). -/
def execAdcIndy (z : Byte) (s : State) : Host.Outcome State Fault Refusal := .next (readRetire .adc .indy addA (opIndy z s))

/-- ADC ZPX, 0x75 (R251, R153). -/
def execAdcZpx (z : Byte) (s : State) : Host.Outcome State Fault Refusal := .next (readRetire .adc .zpx addA (opZpx z s))

/-- ADC ABSY, 0x79 (R251, R155). -/
def execAdcAbsy (a : Addr) (s : State) : Host.Outcome State Fault Refusal := .next (readRetire .adc .absy addA (opAbsy a s))

/-- ADC ABSX, 0x7D (R251, R155). -/
def execAdcAbsx (a : Addr) (s : State) : Host.Outcome State Fault Refusal := .next (readRetire .adc .absx addA (opAbsx a s))

/-- SBC INDX, 0xE1 (R252, R157). -/
def execSbcIndx (z : Byte) (s : State) : Host.Outcome State Fault Refusal := .next (readRetire .sbc .indx subA (opIndx z s))

/-- SBC ZP, 0xE5 (R252, R152). -/
def execSbcZp (z : Byte) (s : State) : Host.Outcome State Fault Refusal := .next (readRetire .sbc .zp subA (opZp z s))

/-- SBC IMM, 0xE9 (R252, R151). -/
def execSbcImm (v : Byte) (s : State) : Host.Outcome State Fault Refusal := .next (retire .sbc .imm false (subA v s))

/-- SBC ABS, 0xED (R252, R154). -/
def execSbcAbs (a : Addr) (s : State) : Host.Outcome State Fault Refusal := .next (readRetire .sbc .abs subA (opAbs a s))

/-- SBC INDY, 0xF1 (R252, R158). -/
def execSbcIndy (z : Byte) (s : State) : Host.Outcome State Fault Refusal := .next (readRetire .sbc .indy subA (opIndy z s))

/-- SBC ZPX, 0xF5 (R252, R153). -/
def execSbcZpx (z : Byte) (s : State) : Host.Outcome State Fault Refusal := .next (readRetire .sbc .zpx subA (opZpx z s))

/-- SBC ABSY, 0xF9 (R252, R155). -/
def execSbcAbsy (a : Addr) (s : State) : Host.Outcome State Fault Refusal := .next (readRetire .sbc .absy subA (opAbsy a s))

/-- SBC ABSX, 0xFD (R252, R155). -/
def execSbcAbsx (a : Addr) (s : State) : Host.Outcome State Fault Refusal := .next (readRetire .sbc .absx subA (opAbsx a s))

/-- CMP INDX, 0xC1 (R255, R157). -/
def execCmpIndx (z : Byte) (s : State) : Host.Outcome State Fault Refusal := .next (readRetire .cmp .indx compareA (opIndx z s))

/-- CMP ZP, 0xC5 (R255, R152). -/
def execCmpZp (z : Byte) (s : State) : Host.Outcome State Fault Refusal := .next (readRetire .cmp .zp compareA (opZp z s))

/-- CMP IMM, 0xC9 (R255, R151). -/
def execCmpImm (v : Byte) (s : State) : Host.Outcome State Fault Refusal := .next (retire .cmp .imm false (compareA v s))

/-- CMP ABS, 0xCD (R255, R154). -/
def execCmpAbs (a : Addr) (s : State) : Host.Outcome State Fault Refusal := .next (readRetire .cmp .abs compareA (opAbs a s))

/-- CMP INDY, 0xD1 (R255, R158). -/
def execCmpIndy (z : Byte) (s : State) : Host.Outcome State Fault Refusal := .next (readRetire .cmp .indy compareA (opIndy z s))

/-- CMP ZPX, 0xD5 (R255, R153). -/
def execCmpZpx (z : Byte) (s : State) : Host.Outcome State Fault Refusal := .next (readRetire .cmp .zpx compareA (opZpx z s))

/-- CMP ABSY, 0xD9 (R255, R155). -/
def execCmpAbsy (a : Addr) (s : State) : Host.Outcome State Fault Refusal := .next (readRetire .cmp .absy compareA (opAbsy a s))

/-- CMP ABSX, 0xDD (R255, R155). -/
def execCmpAbsx (a : Addr) (s : State) : Host.Outcome State Fault Refusal := .next (readRetire .cmp .absx compareA (opAbsx a s))

/-- CPX IMM, 0xE0 (R256, R151). -/
def execCpxImm (v : Byte) (s : State) : Host.Outcome State Fault Refusal := .next (retire .cpx .imm false (compareX v s))

/-- CPX ZP, 0xE4 (R256, R152). -/
def execCpxZp (z : Byte) (s : State) : Host.Outcome State Fault Refusal := .next (readRetire .cpx .zp compareX (opZp z s))

/-- CPX ABS, 0xEC (R256, R154). -/
def execCpxAbs (a : Addr) (s : State) : Host.Outcome State Fault Refusal := .next (readRetire .cpx .abs compareX (opAbs a s))

/-- CPY IMM, 0xC0 (R257, R151). -/
def execCpyImm (v : Byte) (s : State) : Host.Outcome State Fault Refusal := .next (retire .cpy .imm false (compareY v s))

/-- CPY ZP, 0xC4 (R257, R152). -/
def execCpyZp (z : Byte) (s : State) : Host.Outcome State Fault Refusal := .next (readRetire .cpy .zp compareY (opZp z s))

/-- CPY ABS, 0xCC (R257, R154). -/
def execCpyAbs (a : Addr) (s : State) : Host.Outcome State Fault Refusal := .next (readRetire .cpy .abs compareY (opAbs a s))

/-- INC ZP, 0xE6 (R258, R152). -/
def execIncZp (z : Byte) (s : State) : Host.Outcome State Fault Refusal := .next (modifyRetire .inc .zp incByte incFlags (opZp z s))

/-- INC ABS, 0xEE (R258, R154). -/
def execIncAbs (a : Addr) (s : State) : Host.Outcome State Fault Refusal := .next (modifyRetire .inc .abs incByte incFlags (opAbs a s))

/-- INC ZPX, 0xF6 (R258, R153). -/
def execIncZpx (z : Byte) (s : State) : Host.Outcome State Fault Refusal := .next (modifyRetire .inc .zpx incByte incFlags (opZpx z s))

/-- INC ABSX, 0xFE (R258, R155). -/
def execIncAbsx (a : Addr) (s : State) : Host.Outcome State Fault Refusal := .next (modifyRetire .inc .absx incByte incFlags (opAbsx a s))

/-- DEC ZP, 0xC6 (R259, R152). -/
def execDecZp (z : Byte) (s : State) : Host.Outcome State Fault Refusal := .next (modifyRetire .dec .zp decByte decFlags (opZp z s))

/-- DEC ABS, 0xCE (R259, R154). -/
def execDecAbs (a : Addr) (s : State) : Host.Outcome State Fault Refusal := .next (modifyRetire .dec .abs decByte decFlags (opAbs a s))

/-- DEC ZPX, 0xD6 (R259, R153). -/
def execDecZpx (z : Byte) (s : State) : Host.Outcome State Fault Refusal := .next (modifyRetire .dec .zpx decByte decFlags (opZpx z s))

/-- DEC ABSX, 0xDE (R259, R155). -/
def execDecAbsx (a : Addr) (s : State) : Host.Outcome State Fault Refusal := .next (modifyRetire .dec .absx decByte decFlags (opAbsx a s))

/-- INX, 0xE8 (R260). -/
def execInx (s : State) : Host.Outcome State Fault Refusal := .next (retire .inx .imp false ((s.setX (s.cpu.x + 1#8)).setNZ (s.cpu.x + 1#8)))

/-- INY, 0xC8 (R261). -/
def execIny (s : State) : Host.Outcome State Fault Refusal := .next (retire .iny .imp false ((s.setY (s.cpu.y + 1#8)).setNZ (s.cpu.y + 1#8)))

/-- DEX, 0xCA (R262). -/
def execDex (s : State) : Host.Outcome State Fault Refusal := .next (retire .dex .imp false ((s.setX (s.cpu.x - 1#8)).setNZ (s.cpu.x - 1#8)))

/-- DEY, 0x88 (R263). -/
def execDey (s : State) : Host.Outcome State Fault Refusal := .next (retire .dey .imp false ((s.setY (s.cpu.y - 1#8)).setNZ (s.cpu.y - 1#8)))

end Sys2Proof.Machine
end

