-- ==== Sys2Proof/Machine/Control.lean ====
section
/-! DEFINITION. The control transfer instructions (spec/45_control.md): one meaning for each row of the opcode table, over the shared operations below. -/

namespace Sys2Proof.Machine

/-- Branch(cond) at the instruction's own address (R305), with its cycles: not taken, taken, or taken into another page (R160). -/
def branch (m : Mnemonic) (cond : Bool) (off : Byte) (s : State) : State :=
  let target := branchTarget s.cpu.pc off
  if cond then jumpTo target (takenCycles m (hiByte (s.cpu.pc + 2#16) != hiByte target) s) s
  else retire m .rel false s

/-- JMP (IND) (R300). -/
def jumpIndirect (ptr : Addr) (s : State) : State :=
  let t := indirectTarget ptr s
  jumpTo t.1 (instrCycles .jmp .ind false s) t.2

/-- JSR: push the address of its own last byte, then go to the target (R301). -/
def callSubroutine (target : Addr) (s : State) : State := jumpTo target (instrCycles .jsr .abs false s) (pushWord (s.cpu.pc + 2#16) s)

/-- RTS: pull the address and add 1 (R302). -/
def returnFromSubroutine (s : State) : State :=
  let t := pullWord s
  jumpTo (t.1 + 1#16) (instrCycles .rts .imp false s) t.2

/-- JMP ABS, 0x4C (R300, R154). -/
def execJmpAbs (a : Addr) (s : State) : Host.Outcome State Fault Refusal := .next (jumpTo a (instrCycles .jmp .abs false s) s)

/-- JMP IND, 0x6C (R300, R156). -/
def execJmpInd (a : Addr) (s : State) : Host.Outcome State Fault Refusal := .next (jumpIndirect a s)

/-- JSR ABS, 0x20 (R301, R154). -/
def execJsr (a : Addr) (s : State) : Host.Outcome State Fault Refusal := .next (callSubroutine a s)

/-- RTS, 0x60 (R302). -/
def execRts (s : State) : Host.Outcome State Fault Refusal := .next (returnFromSubroutine s)

/-- RTI, 0x40 (R303). -/
def execRti (s : State) : Host.Outcome State Fault Refusal := .next ((returnFromException s).setReported (instrCycles .rti .imp false s))

/-- BRK, 0x00 (R304). -/
def execBrk (s : State) : Host.Outcome State Fault Refusal :=
  .next ((takeException (s.cpu.pc + 2#16) true 0xFFFE#16 s).setReported (instrCycles .brk .imp false s))

/-- BCC, 0x90 (R306, R305). -/
def execBcc (off : Byte) (s : State) : Host.Outcome State Fault Refusal := .next (branch .bcc (!s.cpu.p.c) off s)

/-- BCS, 0xB0 (R307, R305). -/
def execBcs (off : Byte) (s : State) : Host.Outcome State Fault Refusal := .next (branch .bcs s.cpu.p.c off s)

/-- BEQ, 0xF0 (R308, R305). -/
def execBeq (off : Byte) (s : State) : Host.Outcome State Fault Refusal := .next (branch .beq s.cpu.p.z off s)

/-- BMI, 0x30 (R309, R305). -/
def execBmi (off : Byte) (s : State) : Host.Outcome State Fault Refusal := .next (branch .bmi s.cpu.p.n off s)

/-- BNE, 0xD0 (R310, R305). -/
def execBne (off : Byte) (s : State) : Host.Outcome State Fault Refusal := .next (branch .bne (!s.cpu.p.z) off s)

/-- BPL, 0x10 (R311, R305). -/
def execBpl (off : Byte) (s : State) : Host.Outcome State Fault Refusal := .next (branch .bpl (!s.cpu.p.n) off s)

/-- BVC, 0x50 (R312, R305). -/
def execBvc (off : Byte) (s : State) : Host.Outcome State Fault Refusal := .next (branch .bvc (!s.cpu.p.v) off s)

/-- BVS, 0x70 (R313, R305). -/
def execBvs (off : Byte) (s : State) : Host.Outcome State Fault Refusal := .next (branch .bvs s.cpu.p.v off s)

end Sys2Proof.Machine
end

