-- ==== Sys2Proof/Machine/FlagsMisc.lean ====
section
/-! DEFINITION. The flag instructions and NOP (spec/46_flags_misc.md): one meaning for each row of the opcode table, over the shared operations below. -/

namespace Sys2Proof.Machine


/-- CLC, 0x18 (R331). -/
def execClc (s : State) : Host.Outcome State Fault Refusal := .next (retire .clc .imp false (s.setP { s.cpu.p with c := false }))

/-- CLD, 0xD8 (R332). -/
def execCld (s : State) : Host.Outcome State Fault Refusal := .next (retire .cld .imp false (s.setP { s.cpu.p with d := false }))

/-- CLI, 0x58 (R333). -/
def execCli (s : State) : Host.Outcome State Fault Refusal := .next (retire .cli .imp false (s.setP { s.cpu.p with i := false }))

/-- CLV, 0xB8 (R334). -/
def execClv (s : State) : Host.Outcome State Fault Refusal := .next (retire .clv .imp false (s.setP { s.cpu.p with v := false }))

/-- SEC, 0x38 (R335). -/
def execSec (s : State) : Host.Outcome State Fault Refusal := .next (retire .sec .imp false (s.setP { s.cpu.p with c := true }))

/-- SED, 0xF8 (R336). -/
def execSed (s : State) : Host.Outcome State Fault Refusal := .next (retire .sed .imp false (s.setP { s.cpu.p with d := true }))

/-- SEI, 0x78 (R337). -/
def execSei (s : State) : Host.Outcome State Fault Refusal := .next (retire .sei .imp false (s.setP { s.cpu.p with i := true }))

/-- NOP, 0xEA (R338). -/
def execNop (s : State) : Host.Outcome State Fault Refusal := .next (retire .nop .imp false s)

end Sys2Proof.Machine
end

