-- ==== Sys2Proof/Machine/LoadStore.lean ====
section
/-! DEFINITION. The load and store instructions (spec/41_load_store.md): one meaning for each row of the opcode table, over the shared operations below. -/

namespace Sys2Proof.Machine

/-- LDA's effect of a loaded byte (R211). -/
def loadA (v : Byte) (s : State) : State := (s.setA v).setNZ v

/-- LDX's effect of a loaded byte (R212). -/
def loadX (v : Byte) (s : State) : State := (s.setX v).setNZ v

/-- LDY's effect of a loaded byte (R213). -/
def loadY (v : Byte) (s : State) : State := (s.setY v).setNZ v

/-- LDA INDX, 0xA1 (R211, R157). -/
def execLdaIndx (z : Byte) (s : State) : Host.Outcome State Fault Refusal := .next (readRetire .lda .indx loadA (opIndx z s))

/-- LDA ZP, 0xA5 (R211, R152). -/
def execLdaZp (z : Byte) (s : State) : Host.Outcome State Fault Refusal := .next (readRetire .lda .zp loadA (opZp z s))

/-- LDA IMM, 0xA9 (R211, R151). -/
def execLdaImm (v : Byte) (s : State) : Host.Outcome State Fault Refusal := .next (retire .lda .imm false (loadA v s))

/-- LDA ABS, 0xAD (R211, R154). -/
def execLdaAbs (a : Addr) (s : State) : Host.Outcome State Fault Refusal := .next (readRetire .lda .abs loadA (opAbs a s))

/-- LDA INDY, 0xB1 (R211, R158). -/
def execLdaIndy (z : Byte) (s : State) : Host.Outcome State Fault Refusal := .next (readRetire .lda .indy loadA (opIndy z s))

/-- LDA ZPX, 0xB5 (R211, R153). -/
def execLdaZpx (z : Byte) (s : State) : Host.Outcome State Fault Refusal := .next (readRetire .lda .zpx loadA (opZpx z s))

/-- LDA ABSY, 0xB9 (R211, R155). -/
def execLdaAbsy (a : Addr) (s : State) : Host.Outcome State Fault Refusal := .next (readRetire .lda .absy loadA (opAbsy a s))

/-- LDA ABSX, 0xBD (R211, R155). -/
def execLdaAbsx (a : Addr) (s : State) : Host.Outcome State Fault Refusal := .next (readRetire .lda .absx loadA (opAbsx a s))

/-- LDX IMM, 0xA2 (R212, R151). -/
def execLdxImm (v : Byte) (s : State) : Host.Outcome State Fault Refusal := .next (retire .ldx .imm false (loadX v s))

/-- LDX ZP, 0xA6 (R212, R152). -/
def execLdxZp (z : Byte) (s : State) : Host.Outcome State Fault Refusal := .next (readRetire .ldx .zp loadX (opZp z s))

/-- LDX ABS, 0xAE (R212, R154). -/
def execLdxAbs (a : Addr) (s : State) : Host.Outcome State Fault Refusal := .next (readRetire .ldx .abs loadX (opAbs a s))

/-- LDX ZPY, 0xB6 (R212, R153). -/
def execLdxZpy (z : Byte) (s : State) : Host.Outcome State Fault Refusal := .next (readRetire .ldx .zpy loadX (opZpy z s))

/-- LDX ABSY, 0xBE (R212, R155). -/
def execLdxAbsy (a : Addr) (s : State) : Host.Outcome State Fault Refusal := .next (readRetire .ldx .absy loadX (opAbsy a s))

/-- LDY IMM, 0xA0 (R213, R151). -/
def execLdyImm (v : Byte) (s : State) : Host.Outcome State Fault Refusal := .next (retire .ldy .imm false (loadY v s))

/-- LDY ZP, 0xA4 (R213, R152). -/
def execLdyZp (z : Byte) (s : State) : Host.Outcome State Fault Refusal := .next (readRetire .ldy .zp loadY (opZp z s))

/-- LDY ABS, 0xAC (R213, R154). -/
def execLdyAbs (a : Addr) (s : State) : Host.Outcome State Fault Refusal := .next (readRetire .ldy .abs loadY (opAbs a s))

/-- LDY ZPX, 0xB4 (R213, R153). -/
def execLdyZpx (z : Byte) (s : State) : Host.Outcome State Fault Refusal := .next (readRetire .ldy .zpx loadY (opZpx z s))

/-- LDY ABSX, 0xBC (R213, R155). -/
def execLdyAbsx (a : Addr) (s : State) : Host.Outcome State Fault Refusal := .next (readRetire .ldy .absx loadY (opAbsx a s))

/-- STA INDX, 0x81 (R214, R157). -/
def execStaIndx (z : Byte) (s : State) : Host.Outcome State Fault Refusal := .next (storeRetire .sta .indx s.cpu.a (opIndx z s))

/-- STA ZP, 0x85 (R214, R152). -/
def execStaZp (z : Byte) (s : State) : Host.Outcome State Fault Refusal := .next (storeRetire .sta .zp s.cpu.a (opZp z s))

/-- STA ABS, 0x8D (R214, R154). -/
def execStaAbs (a : Addr) (s : State) : Host.Outcome State Fault Refusal := .next (storeRetire .sta .abs s.cpu.a (opAbs a s))

/-- STA INDY, 0x91 (R214, R158). -/
def execStaIndy (z : Byte) (s : State) : Host.Outcome State Fault Refusal := .next (storeRetire .sta .indy s.cpu.a (opIndy z s))

/-- STA ZPX, 0x95 (R214, R153). -/
def execStaZpx (z : Byte) (s : State) : Host.Outcome State Fault Refusal := .next (storeRetire .sta .zpx s.cpu.a (opZpx z s))

/-- STA ABSY, 0x99 (R214, R155). -/
def execStaAbsy (a : Addr) (s : State) : Host.Outcome State Fault Refusal := .next (storeRetire .sta .absy s.cpu.a (opAbsy a s))

/-- STA ABSX, 0x9D (R214, R155). -/
def execStaAbsx (a : Addr) (s : State) : Host.Outcome State Fault Refusal := .next (storeRetire .sta .absx s.cpu.a (opAbsx a s))

/-- STX ZP, 0x86 (R215, R152). -/
def execStxZp (z : Byte) (s : State) : Host.Outcome State Fault Refusal := .next (storeRetire .stx .zp s.cpu.x (opZp z s))

/-- STX ABS, 0x8E (R215, R154). -/
def execStxAbs (a : Addr) (s : State) : Host.Outcome State Fault Refusal := .next (storeRetire .stx .abs s.cpu.x (opAbs a s))

/-- STX ZPY, 0x96 (R215, R153). -/
def execStxZpy (z : Byte) (s : State) : Host.Outcome State Fault Refusal := .next (storeRetire .stx .zpy s.cpu.x (opZpy z s))

/-- STY ZP, 0x84 (R216, R152). -/
def execStyZp (z : Byte) (s : State) : Host.Outcome State Fault Refusal := .next (storeRetire .sty .zp s.cpu.y (opZp z s))

/-- STY ABS, 0x8C (R216, R154). -/
def execStyAbs (a : Addr) (s : State) : Host.Outcome State Fault Refusal := .next (storeRetire .sty .abs s.cpu.y (opAbs a s))

/-- STY ZPX, 0x94 (R216, R153). -/
def execStyZpx (z : Byte) (s : State) : Host.Outcome State Fault Refusal := .next (storeRetire .sty .zpx s.cpu.y (opZpx z s))

end Sys2Proof.Machine
end

