-- ==== Sys2Proof/Machine/LogicShift.lean ====
section
/-! DEFINITION. The logic, bit test and shift instructions (spec/44_logic_shift.md): one meaning for each row of the opcode table, over the shared operations below. -/

namespace Sys2Proof.Machine

/-- AND with a byte (R281). -/
def andA (m : Byte) (s : State) : State := (s.setA (s.cpu.a &&& m)).setNZ (s.cpu.a &&& m)

/-- ORA with a byte (R282). -/
def oraA (m : Byte) (s : State) : State := (s.setA (s.cpu.a ||| m)).setNZ (s.cpu.a ||| m)

/-- EOR with a byte (R283). -/
def eorA (m : Byte) (s : State) : State := (s.setA (s.cpu.a ^^^ m)).setNZ (s.cpu.a ^^^ m)

/-- BIT with a byte (R284). -/
def bitA (m : Byte) (s : State) : State := s.setP (s.cpu.p.bitTest s.cpu.a m)

/-- The result and carry of each shift under the flags before it (R285 to R288). -/
def aslShift (_ : Flags) (v : Byte) : Byte × Bool := aslByte v

def lsrShift (_ : Flags) (v : Byte) : Byte × Bool := lsrByte v

def rolShift (p : Flags) (v : Byte) : Byte × Bool := rolByte p.c v

def rorShift (p : Flags) (v : Byte) : Byte × Bool := rorByte p.c v

/-- The accumulator form: A and N, Z, C (R280). -/
def shiftA (f : Flags → Byte → Byte × Bool) (s : State) : State :=
  (s.setA (f s.cpu.p s.cpu.a).1).setP (s.cpu.p.shift (f s.cpu.p s.cpu.a))

/-- The memory form: one read, one write, N, Z, C (R280). -/
def shiftRetire (m : Mnemonic) (md : Mode) (f : Flags → Byte → Byte × Bool) (o : Operand) : State :=
  modifyRetire m md (fun p v => (f p v).1) (fun p v => p.shift (f p v)) o

/-- AND INDX, 0x21 (R281, R157). -/
def execAndIndx (z : Byte) (s : State) : Host.Outcome State Fault Refusal := .next (readRetire .and .indx andA (opIndx z s))

/-- AND ZP, 0x25 (R281, R152). -/
def execAndZp (z : Byte) (s : State) : Host.Outcome State Fault Refusal := .next (readRetire .and .zp andA (opZp z s))

/-- AND IMM, 0x29 (R281, R151). -/
def execAndImm (v : Byte) (s : State) : Host.Outcome State Fault Refusal := .next (retire .and .imm false (andA v s))

/-- AND ABS, 0x2D (R281, R154). -/
def execAndAbs (a : Addr) (s : State) : Host.Outcome State Fault Refusal := .next (readRetire .and .abs andA (opAbs a s))

/-- AND INDY, 0x31 (R281, R158). -/
def execAndIndy (z : Byte) (s : State) : Host.Outcome State Fault Refusal := .next (readRetire .and .indy andA (opIndy z s))

/-- AND ZPX, 0x35 (R281, R153). -/
def execAndZpx (z : Byte) (s : State) : Host.Outcome State Fault Refusal := .next (readRetire .and .zpx andA (opZpx z s))

/-- AND ABSY, 0x39 (R281, R155). -/
def execAndAbsy (a : Addr) (s : State) : Host.Outcome State Fault Refusal := .next (readRetire .and .absy andA (opAbsy a s))

/-- AND ABSX, 0x3D (R281, R155). -/
def execAndAbsx (a : Addr) (s : State) : Host.Outcome State Fault Refusal := .next (readRetire .and .absx andA (opAbsx a s))

/-- ORA INDX, 0x01 (R282, R157). -/
def execOraIndx (z : Byte) (s : State) : Host.Outcome State Fault Refusal := .next (readRetire .ora .indx oraA (opIndx z s))

/-- ORA ZP, 0x05 (R282, R152). -/
def execOraZp (z : Byte) (s : State) : Host.Outcome State Fault Refusal := .next (readRetire .ora .zp oraA (opZp z s))

/-- ORA IMM, 0x09 (R282, R151). -/
def execOraImm (v : Byte) (s : State) : Host.Outcome State Fault Refusal := .next (retire .ora .imm false (oraA v s))

/-- ORA ABS, 0x0D (R282, R154). -/
def execOraAbs (a : Addr) (s : State) : Host.Outcome State Fault Refusal := .next (readRetire .ora .abs oraA (opAbs a s))

/-- ORA INDY, 0x11 (R282, R158). -/
def execOraIndy (z : Byte) (s : State) : Host.Outcome State Fault Refusal := .next (readRetire .ora .indy oraA (opIndy z s))

/-- ORA ZPX, 0x15 (R282, R153). -/
def execOraZpx (z : Byte) (s : State) : Host.Outcome State Fault Refusal := .next (readRetire .ora .zpx oraA (opZpx z s))

/-- ORA ABSY, 0x19 (R282, R155). -/
def execOraAbsy (a : Addr) (s : State) : Host.Outcome State Fault Refusal := .next (readRetire .ora .absy oraA (opAbsy a s))

/-- ORA ABSX, 0x1D (R282, R155). -/
def execOraAbsx (a : Addr) (s : State) : Host.Outcome State Fault Refusal := .next (readRetire .ora .absx oraA (opAbsx a s))

/-- EOR INDX, 0x41 (R283, R157). -/
def execEorIndx (z : Byte) (s : State) : Host.Outcome State Fault Refusal := .next (readRetire .eor .indx eorA (opIndx z s))

/-- EOR ZP, 0x45 (R283, R152). -/
def execEorZp (z : Byte) (s : State) : Host.Outcome State Fault Refusal := .next (readRetire .eor .zp eorA (opZp z s))

/-- EOR IMM, 0x49 (R283, R151). -/
def execEorImm (v : Byte) (s : State) : Host.Outcome State Fault Refusal := .next (retire .eor .imm false (eorA v s))

/-- EOR ABS, 0x4D (R283, R154). -/
def execEorAbs (a : Addr) (s : State) : Host.Outcome State Fault Refusal := .next (readRetire .eor .abs eorA (opAbs a s))

/-- EOR INDY, 0x51 (R283, R158). -/
def execEorIndy (z : Byte) (s : State) : Host.Outcome State Fault Refusal := .next (readRetire .eor .indy eorA (opIndy z s))

/-- EOR ZPX, 0x55 (R283, R153). -/
def execEorZpx (z : Byte) (s : State) : Host.Outcome State Fault Refusal := .next (readRetire .eor .zpx eorA (opZpx z s))

/-- EOR ABSY, 0x59 (R283, R155). -/
def execEorAbsy (a : Addr) (s : State) : Host.Outcome State Fault Refusal := .next (readRetire .eor .absy eorA (opAbsy a s))

/-- EOR ABSX, 0x5D (R283, R155). -/
def execEorAbsx (a : Addr) (s : State) : Host.Outcome State Fault Refusal := .next (readRetire .eor .absx eorA (opAbsx a s))

/-- BIT ZP, 0x24 (R284, R152). -/
def execBitZp (z : Byte) (s : State) : Host.Outcome State Fault Refusal := .next (readRetire .bit .zp bitA (opZp z s))

/-- BIT ABS, 0x2C (R284, R154). -/
def execBitAbs (a : Addr) (s : State) : Host.Outcome State Fault Refusal := .next (readRetire .bit .abs bitA (opAbs a s))

/-- ASL ZP, 0x06 (R285, R152). -/
def execAslZp (z : Byte) (s : State) : Host.Outcome State Fault Refusal := .next (shiftRetire .asl .zp aslShift (opZp z s))

/-- ASL ACC, 0x0A (R285). -/
def execAslAcc (s : State) : Host.Outcome State Fault Refusal := .next (retire .asl .acc false (shiftA aslShift s))

/-- ASL ABS, 0x0E (R285, R154). -/
def execAslAbs (a : Addr) (s : State) : Host.Outcome State Fault Refusal := .next (shiftRetire .asl .abs aslShift (opAbs a s))

/-- ASL ZPX, 0x16 (R285, R153). -/
def execAslZpx (z : Byte) (s : State) : Host.Outcome State Fault Refusal := .next (shiftRetire .asl .zpx aslShift (opZpx z s))

/-- ASL ABSX, 0x1E (R285, R155). -/
def execAslAbsx (a : Addr) (s : State) : Host.Outcome State Fault Refusal := .next (shiftRetire .asl .absx aslShift (opAbsx a s))

/-- LSR ZP, 0x46 (R286, R152). -/
def execLsrZp (z : Byte) (s : State) : Host.Outcome State Fault Refusal := .next (shiftRetire .lsr .zp lsrShift (opZp z s))

/-- LSR ACC, 0x4A (R286). -/
def execLsrAcc (s : State) : Host.Outcome State Fault Refusal := .next (retire .lsr .acc false (shiftA lsrShift s))

/-- LSR ABS, 0x4E (R286, R154). -/
def execLsrAbs (a : Addr) (s : State) : Host.Outcome State Fault Refusal := .next (shiftRetire .lsr .abs lsrShift (opAbs a s))

/-- LSR ZPX, 0x56 (R286, R153). -/
def execLsrZpx (z : Byte) (s : State) : Host.Outcome State Fault Refusal := .next (shiftRetire .lsr .zpx lsrShift (opZpx z s))

/-- LSR ABSX, 0x5E (R286, R155). -/
def execLsrAbsx (a : Addr) (s : State) : Host.Outcome State Fault Refusal := .next (shiftRetire .lsr .absx lsrShift (opAbsx a s))

/-- ROL ZP, 0x26 (R287, R152). -/
def execRolZp (z : Byte) (s : State) : Host.Outcome State Fault Refusal := .next (shiftRetire .rol .zp rolShift (opZp z s))

/-- ROL ACC, 0x2A (R287). -/
def execRolAcc (s : State) : Host.Outcome State Fault Refusal := .next (retire .rol .acc false (shiftA rolShift s))

/-- ROL ABS, 0x2E (R287, R154). -/
def execRolAbs (a : Addr) (s : State) : Host.Outcome State Fault Refusal := .next (shiftRetire .rol .abs rolShift (opAbs a s))

/-- ROL ZPX, 0x36 (R287, R153). -/
def execRolZpx (z : Byte) (s : State) : Host.Outcome State Fault Refusal := .next (shiftRetire .rol .zpx rolShift (opZpx z s))

/-- ROL ABSX, 0x3E (R287, R155). -/
def execRolAbsx (a : Addr) (s : State) : Host.Outcome State Fault Refusal := .next (shiftRetire .rol .absx rolShift (opAbsx a s))

/-- ROR ZP, 0x66 (R288, R152). -/
def execRorZp (z : Byte) (s : State) : Host.Outcome State Fault Refusal := .next (shiftRetire .ror .zp rorShift (opZp z s))

/-- ROR ACC, 0x6A (R288). -/
def execRorAcc (s : State) : Host.Outcome State Fault Refusal := .next (retire .ror .acc false (shiftA rorShift s))

/-- ROR ABS, 0x6E (R288, R154). -/
def execRorAbs (a : Addr) (s : State) : Host.Outcome State Fault Refusal := .next (shiftRetire .ror .abs rorShift (opAbs a s))

/-- ROR ZPX, 0x76 (R288, R153). -/
def execRorZpx (z : Byte) (s : State) : Host.Outcome State Fault Refusal := .next (shiftRetire .ror .zpx rorShift (opZpx z s))

/-- ROR ABSX, 0x7E (R288, R155). -/
def execRorAbsx (a : Addr) (s : State) : Host.Outcome State Fault Refusal := .next (shiftRetire .ror .absx rorShift (opAbsx a s))

end Sys2Proof.Machine
end

