-- ==== Sys2Proof/Machine/TransferStack.lean ====
section
/-! DEFINITION. The register transfer and stack instructions (spec/42_transfer_stack.md): one meaning for each row of the opcode table, over the shared operations below. -/

namespace Sys2Proof.Machine

/-- PLA's pull: `A <- Pull(); SetNZ(A)` (R239). -/
def pullA (s : State) : State :=
  let b := pull s
  (b.2.setA b.1).setNZ b.1

/-- PLP's pull: all six flags from the pulled byte (R240). -/
def pullP (s : State) : State :=
  let b := pull s
  b.2.setP (Flags.ofPbyte b.1)

/-- TAX, 0xAA (R231). -/
def execTax (s : State) : Host.Outcome State Fault Refusal := .next (retire .tax .imp false ((s.setX s.cpu.a).setNZ s.cpu.a))

/-- TAY, 0xA8 (R232). -/
def execTay (s : State) : Host.Outcome State Fault Refusal := .next (retire .tay .imp false ((s.setY s.cpu.a).setNZ s.cpu.a))

/-- TSX, 0xBA (R233). -/
def execTsx (s : State) : Host.Outcome State Fault Refusal := .next (retire .tsx .imp false ((s.setX s.cpu.sp).setNZ s.cpu.sp))

/-- TXA, 0x8A (R234). -/
def execTxa (s : State) : Host.Outcome State Fault Refusal := .next (retire .txa .imp false ((s.setA s.cpu.x).setNZ s.cpu.x))

/-- TXS, 0x9A (R235). -/
def execTxs (s : State) : Host.Outcome State Fault Refusal := .next (retire .txs .imp false (s.setSp s.cpu.x))

/-- TYA, 0x98 (R236). -/
def execTya (s : State) : Host.Outcome State Fault Refusal := .next (retire .tya .imp false ((s.setA s.cpu.y).setNZ s.cpu.y))

/-- PHA, 0x48 (R237). -/
def execPha (s : State) : Host.Outcome State Fault Refusal := .next (retire .pha .imp false (push s.cpu.a s))

/-- PHP, 0x08 (R238). -/
def execPhp (s : State) : Host.Outcome State Fault Refusal := .next (retire .php .imp false (push (s.cpu.p.pbyte true) s))

/-- PLA, 0x68 (R239). -/
def execPla (s : State) : Host.Outcome State Fault Refusal := .next (retire .pla .imp false (pullA s))

/-- PLP, 0x28 (R240). -/
def execPlp (s : State) : Host.Outcome State Fault Refusal := .next (retire .plp .imp false (pullP s))

end Sys2Proof.Machine
end

