-- ==== Sys2Proof/Machine/Fetch.lean ====
section
/-! DEFINITION. Fetching an instruction's bytes through the bus (spec/40_engine.md R182): the opcode, then the operand bytes its
opcode calls for, in ascending address order (spec/30_encoding.md R141). Nothing but these bytes is read (log 6). -/

namespace Sys2Proof.Machine

/-- How many operand bytes follow an opcode by a table: 0 for an illegal byte, of which no further byte is read (R182). -/
def operandCount (isa : List IsaRow) (op : Byte) : Nat :=
  match lookupOp isa op with
  | some b => b.operandBytes
  | none => 0

/-- Read `n` bytes from `a` up, addresses mod 2^16 (R32). -/
def readBytes : Nat → Addr → State → List Byte × State
  | 0, _, s => ([], s)
  | n + 1, a, s =>
    let b := memRead a s
    let rest := readBytes n (a + 1#16) b.2
    (b.1 :: rest.1, rest.2)

/-- The bytes of the instruction at PC, and the state their reads leave (R182, R184). -/
def fetchBytes (s : State) : List Byte × State :=
  let op := memRead s.cpu.pc s
  let rest := readBytes (operandCount s.config.isa op.1) (s.cpu.pc + 1#16) op.2
  (op.1 :: rest.1, rest.2)

end Sys2Proof.Machine
end

