-- ==== Sys2Proof/Machine/Step.lean ====
section
/-! DEFINITION. One step of the engine (spec/40_engine.md R181), and placing an instruction where the next step fetches it. -/

namespace Sys2Proof.Machine

/-- Step() (R181): the breakpoint check, fetch and decode, execute, then the NMI sample, the notified cycles and the poll. A state that
is not Running has no step (R195; log 7). -/
def step (s : State) : Host.Outcome State Fault Refusal :=
  match s.engine.status with
  | .halted pc => .fault (.stoppedHalted pc)
  | .faulted f => .fault (.stoppedFaulted f)
  | .running =>
    if s.engine.breakpoint = some s.cpu.pc then .next (haltAtBreakpoint s)
    else
      let f := fetchBytes s
      match decodeWith s.config.isa f.1 with
      | .error _ => .next (raiseIllegalOpcode (busByte s.cpu.pc s) f.2)
      | .ok (i, _) =>
        match exec i f.2 with
        | .next t => .next (finishStep t)
        | .fault r => .fault r
        | .refused r => .refused r

/-- Where `withFetchWord` puts an instruction: 0x0200 is RAM in every bank configuration (R101). -/
def fetchWordBase : Addr := 0x0200#16

/-- `s` with an opcode-table word stored as an instruction that the very next step runs: its bytes in RAM at 0x0200, PC there, status
Running, and no breakpoint on it (the test launch of spec/70_reset_and_hazards.md R526; log 10). -/
def State.withFetchWord (s : State) (nbits w : Nat) : State :=
  let ram := (tableWordBytes nbits w).zipIdx.foldl (fun m b => Memory.put (fetchWordBase.toNat + b.2) b.1 m) s.bus.ram
  { s with
    cpu.pc := fetchWordBase
    engine.status := .running
    engine.breakpoint := if s.engine.breakpoint = some fetchWordBase then none else s.engine.breakpoint
    bus.ram := ram }

end Sys2Proof.Machine
end

