-- ==== Sys2Proof/Machine/Disk.lean ====
section
/-! DEFINITION. The disk-image geometry decoder (spec/63_disk_image.md), a pure function of a byte stream, and the errors of host
calls (spec/60_exceptions.md R357). -/

namespace Sys2Proof.Machine

/-- The faults a host call answers with (R357). The machine's state is not changed by a call that fails. -/
inductive HostError where
  /-- FLT-2 PreconditionViolation -/
  | preconditionViolation (what : String)
  /-- FLT-3 SectorTooLarge -/
  | sectorTooLarge (length : Nat)
  /-- FLT-4 DiskTruncated -/
  | diskTruncated (track sector : Nat)
  /-- FLT-5 ConfigError -/
  | configError (what : String)
  deriving DecidableEq, Repr

/-- A sector: exactly 256 bytes (R490). -/
abbrev Sector := Vector Byte 256

/-- A track: its sectors in order, numbered from 0 (R490). -/
abbrev Track := List Sector

/-- A disk image: its tracks in order, the first being track 1 (R50). -/
structure DiskImage where
  tracks : List Track
  deriving DecidableEq, Repr

/-- SPT(t), the zone table (R492). Outside 1..35 it is not called; it answers 0 there. -/
def spt (t : Nat) : Nat :=
  if 1 ≤ t ∧ t ≤ 17 then 21
  else if 18 ≤ t ∧ t ≤ 24 then 19
  else if 25 ≤ t ∧ t ≤ 30 then 18
  else if 31 ≤ t ∧ t ≤ 35 then 17
  else 0

/-- The number of sectors before track `t`. -/
def sectorsBefore (t : Nat) : Nat := ((List.range' 1 (t - 1)).map spt).sum

/-- offset(t, s), the place of a sector in the stream (R493). -/
def diskOffset (t s : Nat) : Nat := 256 * (sectorsBefore t + s)

/-- The whole length of an image (R493). -/
def diskLength : Nat := 256 * sectorsBefore (Config.numTracks + 1)

/-- 256 bytes from a buffer, missing ones 0x00. -/
def sectorOf (b : List Byte) : Sector := Vector.ofFn fun j : Fin 256 => b[j.val]?.getD 0x00#8

/-- makeSector(b) (R496). -/
def makeSector (b : List Byte) : Except HostError Sector :=
  if Config.sectorSize < b.length then .error (.sectorTooLarge b.length) else .ok (sectorOf b)

/-- The next `n` sectors of track `t`, the first of them sector `i`, and the bytes after them (R494). -/
def parseSectors (t : Nat) : Nat → Nat → List Byte → Except HostError (List Sector × List Byte)
  | 0, _, bs => .ok ([], bs)
  | n + 1, i, bs =>
    if (bs.take 256).length < 256 then .error (.diskTruncated t i)
    else match parseSectors t n (i + 1) (bs.drop 256) with
      | .error e => .error e
      | .ok (ss, rest) => .ok (sectorOf (bs.take 256) :: ss, rest)

/-- The tracks of a list of track numbers, in order (R494). -/
def parseTracks : List Nat → List Byte → Except HostError (List Track)
  | [], _ => .ok []
  | t :: ts, bs =>
    match parseSectors t (spt t) 0 bs with
    | .error e => .error e
    | .ok (ss, rest) =>
      match parseTracks ts rest with
      | .error e => .error e
      | .ok tracks => .ok (ss :: tracks)

/-- parseDisk(stream) (R494): tracks 1 to 35; bytes after the last sector are not read. -/
def parseDisk (stream : List Byte) : Except HostError DiskImage :=
  match parseTracks (List.range' 1 Config.numTracks) stream with
  | .error e => .error e
  | .ok tracks => .ok { tracks := tracks }

/-- The image has 35 tracks, and track t has SPT(t) sectors (R50). -/
def DiskImage.wf (img : DiskImage) : Bool :=
  img.tracks.map (·.length) == (List.range' 1 Config.numTracks).map spt

/-- getTrack(image, t): 1-based; any other index fails (R497). -/
def getTrack (img : DiskImage) (t : Int) : Except HostError Track :=
  if 1 ≤ t ∧ t ≤ 35 then
    match img.tracks[(t - 1).toNat]? with
    | some tr => .ok tr
    | none => .error (.preconditionViolation "track")
  else .error (.preconditionViolation "track")

/-- getSector(track, s): 0-based; any other index fails (R497). -/
def getSector (tr : Track) (s : Int) : Except HostError Sector :=
  if 0 ≤ s then
    match tr[s.toNat]? with
    | some sec => .ok sec
    | none => .error (.preconditionViolation "sector")
  else .error (.preconditionViolation "sector")

end Sys2Proof.Machine
end

