-- ==== Sys2Proof/Machine/Collaborators.lean ====
section
/-! DEFINITION. What the host may do to the machine, between steps (spec/60_exceptions.md R354, R380 to R386): launch, input events,
cartridge events, observation, bus accesses with an address check. -/

namespace Sys2Proof.Machine

/-! ### Launch -/

/-- The value of a hexadecimal digit, in either case (R354). -/
def hexDigit (c : Char) : Option Nat :=
  if '0' ≤ c ∧ c ≤ '9' then some (c.toNat - 48)
  else if 'a' ≤ c ∧ c ≤ 'f' then some (c.toNat - 87)
  else if 'A' ≤ c ∧ c ≤ 'F' then some (c.toNat - 55)
  else none

/-- The value of a list of hexadecimal digits, the first the most significant. -/
def hexValue : List Char → Nat → Option Nat
  | [], acc => some acc
  | c :: cs, acc =>
    match hexDigit c with
    | some d => hexValue cs (acc * 16 + d)
    | none => none

/-- Breakpoint text: 1 to 4 hexadecimal digits, no prefix, sign or space (R354). -/
def parseBreakpointChars (cs : List Char) : Except HostError Addr :=
  if 1 ≤ cs.length ∧ cs.length ≤ 4 then
    match hexValue cs 0 with
    | some n => .ok (BitVec.ofNat 16 n)
    | none => .error (.configError "breakpoint")
  else .error (.configError "breakpoint")

/-- The breakpoint a launch is given; absent text means none (R383). -/
def parseBreakpoint : Option String → Except HostError (Option Addr)
  | none => .ok none
  | some t =>
    match parseBreakpointChars t.toList with
    | .ok a => .ok (some a)
    | .error e => .error e

/-- What the container collaborator makes of the cartridge path (R354, R355; log 13). -/
inductive CartArg where
  | absent
  | missingFile
  | readFailure
  | file (c : Cart)
  deriving DecidableEq, Repr

/-- The arguments of a launch: the Config, the breakpoint text and the cartridge (R380, R383). The ROM images are constants; the launch
checks the sizes of the files they come from (R354). -/
structure LaunchArgs where
  config         : MachineConfig
  breakpointText : Option String
  cart           : CartArg
  basicSize      : Nat
  kernalSize     : Nat
  charSize       : Nat
  deriving DecidableEq, Repr

/-- The cartridge of a launch, or the error of its file (R354 check 2). -/
def cartOfArg : CartArg → Except HostError (Option Cart)
  | .absent => .ok none
  | .missingFile => .error (.configError "cartridge")
  | .readFailure => .error (.configError "cartridge")
  | .file c => .ok (some c)

/-- The bank lines of a cartridge, both 1 without one (R106, R107). -/
def attach (cart : Option Cart) (s : State) : State :=
  match cart with
  | none => { s with bus.cart := none, bus.bank.game := true, bus.bank.exrom := true }
  | some c => { s with bus.cart := some c, bus.bank.game := c.game, bus.bank.exrom := c.exrom }

/-- The state a successful launch builds (R520 to R522): the Config, the reset values, the breakpoint, the cartridge, and PC read from
0xFFFC under them. -/
def launchState (config : MachineConfig) (breakpoint : Option Addr) (cart : Option Cart) : State :=
  let s := attach cart { State.reset with config := config, engine.breakpoint := breakpoint }
  let t := memRead16 0xFFFC#16 s
  t.2.setPc t.1

/-- Launch (R520): the checks of R354 in their order, then the reset state. -/
def launch (l : LaunchArgs) : Except HostError State :=
  match parseBreakpoint l.breakpointText with
  | .error e => .error e
  | .ok bp =>
    match cartOfArg l.cart with
    | .error e => .error e
    | .ok cart =>
      if l.basicSize = 8192 ∧ l.kernalSize = 8192 ∧ l.charSize = 4096 then .ok (launchState l.config bp cart)
      else .error (.configError "ROM size")

/-! ### Host events -/

/-- The host events (R380 to R382), and an insertion request that fails (R355; log 13). -/
inductive HostEvent where
  | keyDown (c r : Nat)
  | keyUp (c r : Nat)
  | setJoy (n : Nat) (bits : Byte)
  | insertCart (c : Cart)
  /-- an insertion whose image cannot be read (R355) -/
  | insertUnreadable
  | removeCart
  deriving DecidableEq, Repr

/-- keys[c][r] <- down, for c and r in 0..7 (R381). -/
def setKey (c r : Nat) (down : Bool) (s : State) : Except HostError State :=
  if h : c < 8 ∧ r < 8 then
    .ok (s.setInput { s.input with keys := s.input.keys.set c (s.input.keys[c].set r down h.2) h.1 })
  else .error (.preconditionViolation "key")

/-- joy<n> <- bits[4:0], for n in 1, 2 (R381). -/
def setJoy (n : Nat) (bits : Byte) (s : State) : Except HostError State :=
  if n = 1 then .ok (s.setInput { s.input with joy1 := bits.extractLsb' 0 5 })
  else if n = 2 then .ok (s.setInput { s.input with joy2 := bits.extractLsb' 0 5 })
  else .error (.preconditionViolation "joystick")

/-- Insertion (R106): the cartridge and both lines at once; the latch is unchanged. -/
def insertCart (c : Cart) (s : State) : State := attach (some c) s

/-- Removal (R107, R382). -/
def removeCart (s : State) : State := attach none s

/-- One host event between steps (R189, R380). It applies in every run status: the rules put no condition on it, and that it still
changes the input or the cartridge of a Halted or Faulted machine is the model's choice (DESIGN CHOICE, log 19). -/
def hostEvent (e : HostEvent) (s : State) : Except HostError State :=
  match e with
  | .keyDown c r => setKey c r true s
  | .keyUp c r => setKey c r false s
  | .setJoy n bits => setJoy n bits s
  | .insertCart c => .ok (insertCart c s)
  | .insertUnreadable => .error (.configError "cartridge")
  | .removeCart => .ok (removeCart s)

/-- observe(): the whole state, unchanged (R386). -/
def observe (s : State) : State := s

/-- setSurface(handle): the surface is output, not state (R384). -/
def setSurface (_handle : Nat) (s : State) : State := s

/-! ### Host-side bus accesses

They apply in every run status: the rules put no condition on them, and that they still have their effect on a Halted or Faulted machine
(a read clears a visible ICR's flags, a write is stored) is the model's choice (DESIGN CHOICE, log 20). -/

/-- A host-side read through the bus: the address is checked, then it is a CPU read (R81, R353, R386; log 14), in every run status
(DESIGN CHOICE, log 20). -/
def hostRead (a : Int) (s : State) : Except HostError (Byte × State) :=
  if 0 ≤ a ∧ a ≤ 0xFFFF then .ok (memRead (BitVec.ofInt 16 a) s) else .error (.preconditionViolation "address")

/-- A host-side write through the bus: the address is checked, then it is a CPU write (R81, R353; log 14), in every run status
(DESIGN CHOICE, log 20). -/
def hostWrite (a : Int) (v : Byte) (s : State) : Except HostError State :=
  if 0 ≤ a ∧ a ≤ 0xFFFF then .ok (memWrite (BitVec.ofInt 16 a) v s) else .error (.preconditionViolation "address")

end Sys2Proof.Machine
end

