-- ==== Sys2Proof/Machine/VideoView.lean ====
section
/-! DEFINITION. The video chip's restricted, read-only view of memory (spec/20_memory.md R130 to R133) and the row fetch of a badline
(spec/62_video_chip.md R456). Nothing here changes state and no step calls it: the fetched bytes are pixel data only (log 11). -/

namespace Sys2Proof.Machine

/-- vbank, the view's bank select: `(~PAeff(CIA2))[1:0]` (R131). -/
def vbank (s : State) : BitVec 2 := (~~~s.cia2.paEff).extractLsb' 0 2

/-- VicRead(a14) (R130). It reads neither the bank state nor the cartridge. -/
def vicRead (a14 : BitVec 14) (s : State) : Byte :=
  if (vbank s = 0#2 ∨ vbank s = 2#2) ∧ a14.extractLsb' 12 2 = 0b01#2 then Config.romChar (a14.extractLsb' 0 12)
  else ramByte (vbank s ++ a14) s.bus.ram

/-- VicColorRead(i): bits 3:0 of a colour cell (R130, R458). -/
def vicColorRead (i : BitVec 10) (s : State) : Byte := colorCell i s.bus.colorRam &&& 0x0F#8

/-- FetchRow(L): the 40 character codes and colours of a badline's row (R456), none from row 25 on. -/
def fetchRow (line : Nat) (s : State) : List (Byte × Byte) :=
  let row := (line - 0x30) / 8
  if row < 25 then
    (List.range 40).map fun i =>
      (vicRead (s.vic.matrixBase + BitVec.ofNat 14 (row * 40 + i)) s, vicColorRead (BitVec.ofNat 10 (row * 40 + i)) s)
  else []

end Sys2Proof.Machine
end

