-- ==== Sys2Proof/Safety.lean ====
section
/-! DEFINITION. Runs (spec/40_engine.md R189, R194), what a good state is, and the invariant of the machine in the terms claims use. -/

namespace Sys2Proof.Machine

/-- The run has not ended in a fault (R194). -/
def State.unfaulted (s : State) : Bool :=
  match s.engine.status with
  | .faulted _ => false
  | .halted _ => true
  | .running => true

/-- One transition of a run: a step of the engine, or a host event between steps (R189). -/
inductive Action where
  | step
  | event (e : HostEvent)
  deriving DecidableEq, Repr

/-- The states a run can reach: from a launch whose raster geometry is positive (R440), by steps and by host events that do not fail, in
any interleaving (R189, R526). Host events after the run has ended (R194) are admitted, and what they leave counts as reachable: the
model's choice (DESIGN CHOICE, log 19). -/
inductive Reachable : State → Prop where
  | launch (l : LaunchArgs) (s : State) (hg : l.config.geometry.valid = true) (h : launch l = .ok s) : Reachable s
  | step (s t : State) (hs : Reachable s) (h : step s = .next t) : Reachable t
  | event (e : HostEvent) (s t : State) (hs : Reachable s) (h : hostEvent e s = .ok t) : Reachable t

/-- A timer chip keeps its name (R390), never stores bit 4 of a control register (R404, R405), and never sets flags 2 to 4 (R408). -/
def Cia.inv (id : CiaId) (c : Cia) : Bool :=
  c.id == id && !c.cra.getLsbD 4 && !c.crb.getLsbD 4 && (c.icrFlags &&& 0b11100#5) == 0#5

/-- The register indices whose REG entry is never written (R442). -/
def vicUnstored : List Nat := [0x12, 0x13, 0x14, 0x19, 0x1A, 0x1E, 0x1F]

/-- The raster position is in the range of the geometry (R49), the registers that store nothing hold 0 and REG[0x11] has no bit 7 (R442), and
only the raster source is ever latched (R445). -/
def Vic.inv (g : Geometry) (v : Vic) : Bool :=
  decide (v.rasterLine < g.linesPerFrame) && decide (v.rasterCycle < g.cyclesPerLine) &&
    vicUnstored.all (fun i => v.reg i == 0#8) && !(v.reg 0x11).getLsbD 7 && (v.irqFlags &&& 0b1110#4) == 0#4

/-- RAM and colour RAM are in canonical form, and the cartridge lines are those of the cartridge, 1 and 1 without one (R40). -/
def Bus.inv (b : Bus) : Bool :=
  Memory.wf 0x10000 b.ram && Memory.wf 0x400 b.colorRam &&
    match b.cart with
    | none => b.bank.game && b.bank.exrom
    | some c => b.bank.game == c.game && b.bank.exrom == c.exrom

/-- The NMI sampler is up to date while the machine runs: every point where the line can change is followed by a sample (R188). -/
def nmiSampled (s : State) : Bool :=
  match s.engine.status with
  | .running => s.engine.nmiPrev == nmiLine s
  | .halted _ => true
  | .faulted _ => true

/-- The invariant of the machine between steps. -/
structure State.Inv (s : State) : Prop where
  bus : s.bus.inv = true
  cia1 : s.cia1.inv .cia1 = true
  cia2 : s.cia2.inv .cia2 = true
  vic : s.vic.inv s.config.geometry = true
  nmi : nmiSampled s = true
  reported : s.aux.reported = 0

end Sys2Proof.Machine
end

