-- ==== Sys2Proof/Certificates/Slice0/Obligations.lean ====
section
/-! DEFINITION. The statements for the provers, and before them the words they are stated in: effective addresses, results and tables
written from the spec's own lines with numbers, apart from the machine's definitions. -/

namespace Sys2Proof.Claims

open Sys2Proof.Machine

/-! ### Numbers and flags -/

/-- N and Z of a result (R210). -/
def nz (v : Byte) (p : Flags) : Flags := { p with n := decide (128 ≤ v.toNat), z := decide (v = 0#8) }

/-- The status byte N V 1 B D I Z C as a sum of its bits (R35). -/
def statusByte (brk : Bool) (p : Flags) : Byte :=
  BitVec.ofNat 8 (128 * p.n.toNat + 64 * p.v.toNat + 32 + 16 * brk.toNat + 8 * p.d.toNat + 4 * p.i.toNat + 2 * p.z.toNat +
    p.c.toNat)

/-- The flags that PLP and RTI load (R35). -/
def flagsOf (b : Byte) : Flags where
  n := decide (b.toNat / 128 % 2 = 1)
  v := decide (b.toNat / 64 % 2 = 1)
  d := decide (b.toNat / 8 % 2 = 1)
  i := decide (b.toNat / 4 % 2 = 1)
  z := decide (b.toNat / 2 % 2 = 1)
  c := decide (b.toNat % 2 = 1)

/-- The binary sum with carry, read as unsigned for C and as two's complement for V (R250). -/
def binarySum (a m : Byte) (c : Bool) : AluResult :=
  let s := a.toNat + m.toNat + c.toNat
  let t := a.toInt + m.toInt + c.toNat
  { r := BitVec.ofNat 8 s, n := decide (128 ≤ s % 256), v := decide (t < -128 ∨ 127 < t), z := decide (s % 256 = 0),
    c := decide (255 < s) }

/-- The binary difference with borrow: `a - m - (1 - c)`, C set when it is not negative (R250). -/
def binaryDifference (a m : Byte) (c : Bool) : AluResult :=
  let d : Int := a.toNat - m.toNat - (1 - c.toNat)
  let t : Int := a.toInt - m.toInt - (1 - c.toNat)
  { r := BitVec.ofInt 8 d, n := decide (128 ≤ d % 256), v := decide (t < -128 ∨ 127 < t), z := decide (d % 256 = 0),
    c := decide (0 ≤ d) }

/-- A high nibble in place, read as two's complement: `sext_8(n * 16)`. -/
def signedHigh (b : Byte) : Int := if b.toNat / 16 < 8 then 16 * (b.toNat / 16 : Nat) else 16 * (b.toNat / 16 : Nat) - 256

/-- Decimal addition, digit by digit (R253). -/
def decimalSum (a m : Byte) (c : Bool) : AluResult :=
  let al0 := a.toNat % 16 + m.toNat % 16 + c.toNat
  let al := if 10 ≤ al0 then (al0 + 6) % 16 + 16 else al0
  let t := 16 * (a.toNat / 16) + 16 * (m.toNat / 16) + al
  let ts : Int := signedHigh a + signedHigh m + al
  let u := if 160 ≤ t then t + 96 else t
  { r := BitVec.ofNat 8 u, n := decide (t / 128 % 2 = 1), v := decide (ts < -128 ∨ 127 < ts),
    z := decide ((a.toNat + m.toNat + c.toNat) % 256 = 0), c := decide (256 ≤ u) }

/-- Decimal subtraction, digit by digit; the flags are the binary ones (R254). -/
def decimalDifference (a m : Byte) (c : Bool) : AluResult :=
  let al0 : Int := a.toNat % 16 - m.toNat % 16 + c.toNat - 1
  let al : Int := if al0 < 0 then (al0 - 6) % 16 - 16 else al0
  let t : Int := 16 * (a.toNat / 16) - 16 * (m.toNat / 16) + al
  let u : Int := if t < 0 then t - 96 else t
  { binaryDifference a m c with r := BitVec.ofInt 8 u }

/-- The four flags of an addition or subtraction; D and I stay. -/
def alu (x : AluResult) (p : Flags) : Flags := { p with n := x.n, v := x.v, z := x.z, c := x.c }

/-- The flags of a compare (R255 to R257). -/
def comparison (r m : Byte) (p : Flags) : Flags :=
  { p with c := decide (m.toNat ≤ r.toNat), z := decide (r = m), n := decide (128 ≤ (r.toNat + 256 - m.toNat) % 256) }

/-! ### Operands -/

/-- The memory operands of R152 to R158, with the operand bytes as they stand in the encoding. -/
inductive Form where
  | zp (z : Byte) | zpx (z : Byte) | zpy (z : Byte)
  | abs (a : Addr) | absx (a : Addr) | absy (a : Addr)
  | indx (z : Byte) | indy (z : Byte)
  deriving DecidableEq, Repr

/-- The bytes of an instruction: its opcode, then the operand, a 16-bit one low byte first (R141). -/
def Form.bytes (op : Byte) : Form → List Byte
  | .zp z | .zpx z | .zpy z | .indx z | .indy z => [op, z]
  | .abs a | .absx a | .absy a => [op, BitVec.ofNat 8 (a.toNat % 256), BitVec.ofNat 8 (a.toNat / 256)]

/-- The length in bytes (R141, R142). -/
def Form.length : Form → Nat
  | .zp _ | .zpx _ | .zpy _ | .indx _ | .indy _ => 2
  | .abs _ | .absx _ | .absy _ => 3

/-- The 16-bit pointer whose low byte is at zero-page place `n` and whose high byte is at the next, both mod 256 (R14). -/
def pointer (n : Nat) (s : State) : Nat :=
  (busByte (BitVec.ofNat 16 (n % 256)) s).toNat + 256 * (busByte (BitVec.ofNat 16 ((n + 1) % 256)) s).toNat

/-- The mode of an operand (R142). -/
def Form.mode : Form → Mode
  | .zp _ => .zp
  | .zpx _ => .zpx
  | .zpy _ => .zpy
  | .abs _ => .abs
  | .absx _ => .absx
  | .absy _ => .absy
  | .indx _ => .indx
  | .indy _ => .indy

/-- EA(mode) (R152 to R158), from the state before the instruction. -/
def Form.ea (s : State) : Form → Addr
  | .zp z => BitVec.ofNat 16 z.toNat
  | .zpx z => BitVec.ofNat 16 ((z.toNat + s.cpu.x.toNat) % 256)
  | .zpy z => BitVec.ofNat 16 ((z.toNat + s.cpu.y.toNat) % 256)
  | .abs a => a
  | .absx a => BitVec.ofNat 16 (a.toNat + s.cpu.x.toNat)
  | .absy a => BitVec.ofNat 16 (a.toNat + s.cpu.y.toNat)
  | .indx z => BitVec.ofNat 16 (pointer (z.toNat + s.cpu.x.toNat) s)
  | .indy z => BitVec.ofNat 16 (pointer z.toNat s + s.cpu.y.toNat)

/-- `crossed`: the index changes the page (R155, R158). -/
def Form.crossed (s : State) : Form → Bool
  | .absx a => decide (a.toNat / 256 ≠ (a.toNat + s.cpu.x.toNat) % 65536 / 256)
  | .absy a => decide (a.toNat / 256 ≠ (a.toNat + s.cpu.y.toNat) % 65536 / 256)
  | .indy z => decide (pointer z.toNat s / 256 ≠ (pointer z.toNat s + s.cpu.y.toNat) % 65536 / 256)
  | .zp _ | .zpx _ | .zpy _ | .abs _ | .indx _ => false

/-- Cycles of an instruction on the operand: its base count in the Config's table, and the table's penalty where the index crosses a page
(R160, R184). -/
def Form.cycles (m : Mnemonic) (s : State) (f : Form) : Nat :=
  (s.config.cycleRow m f.mode).base + if f.crossed s then (s.config.cycleRow m f.mode).crossed else 0

/-- What a reading instruction reads: an immediate byte (R151) or a memory operand. -/
inductive Source where
  | imm (v : Byte)
  | mem (f : Form)
  deriving DecidableEq, Repr

def Source.bytes (op : Byte) : Source → List Byte
  | .imm v => [op, v]
  | .mem f => f.bytes op

def Source.length : Source → Nat
  | .imm _ => 2
  | .mem f => f.length

/-- OPERAND(mode) (R149, R151). -/
def Source.value (s : State) : Source → Byte
  | .imm v => v
  | .mem f => busByte (f.ea s) s

/-- The state that reading the operand leaves (R111). -/
def Source.after (s : State) : Source → State
  | .imm _ => s
  | .mem f => afterRead (f.ea s) s

def Source.cycles (m : Mnemonic) (s : State) : Source → Nat
  | .imm _ => (s.config.cycleRow m .imm).base
  | .mem f => f.cycles m s

/-- The end of a reading instruction: the registers it leaves are `c`, PC moves past it, its cycles are reported, and nothing else
differs from the state after the read. Here and below, the cycle count that R184 returns stands in `aux.reported`, the model's place for
it (log 5). -/
def readDone (m : Mnemonic) (src : Source) (s : State) (c : Cpu) : State :=
  { src.after s with
    cpu := { c with pc := s.cpu.pc + BitVec.ofNat 16 src.length }
    aux := { (src.after s).aux with reported := src.cycles m s } }

/-- The instructions that read one operand, by mnemonic and operand, with the opcode byte of each (the Encoding lines of R211 to R213,
R251, R252, R255 to R257, R281 to R284). -/
def readInstr : Mnemonic → Source → Option (Byte × Instr)
  | .lda, .imm v => some (0xA9#8, .ldaImm v)
  | .lda, .mem (.zp z) => some (0xA5#8, .ldaZp z)
  | .lda, .mem (.zpx z) => some (0xB5#8, .ldaZpx z)
  | .lda, .mem (.abs a) => some (0xAD#8, .ldaAbs a)
  | .lda, .mem (.absx a) => some (0xBD#8, .ldaAbsx a)
  | .lda, .mem (.absy a) => some (0xB9#8, .ldaAbsy a)
  | .lda, .mem (.indx z) => some (0xA1#8, .ldaIndx z)
  | .lda, .mem (.indy z) => some (0xB1#8, .ldaIndy z)
  | .ldx, .imm v => some (0xA2#8, .ldxImm v)
  | .ldx, .mem (.zp z) => some (0xA6#8, .ldxZp z)
  | .ldx, .mem (.zpy z) => some (0xB6#8, .ldxZpy z)
  | .ldx, .mem (.abs a) => some (0xAE#8, .ldxAbs a)
  | .ldx, .mem (.absy a) => some (0xBE#8, .ldxAbsy a)
  | .ldy, .imm v => some (0xA0#8, .ldyImm v)
  | .ldy, .mem (.zp z) => some (0xA4#8, .ldyZp z)
  | .ldy, .mem (.zpx z) => some (0xB4#8, .ldyZpx z)
  | .ldy, .mem (.abs a) => some (0xAC#8, .ldyAbs a)
  | .ldy, .mem (.absx a) => some (0xBC#8, .ldyAbsx a)
  | .adc, .imm v => some (0x69#8, .adcImm v)
  | .adc, .mem (.zp z) => some (0x65#8, .adcZp z)
  | .adc, .mem (.zpx z) => some (0x75#8, .adcZpx z)
  | .adc, .mem (.abs a) => some (0x6D#8, .adcAbs a)
  | .adc, .mem (.absx a) => some (0x7D#8, .adcAbsx a)
  | .adc, .mem (.absy a) => some (0x79#8, .adcAbsy a)
  | .adc, .mem (.indx z) => some (0x61#8, .adcIndx z)
  | .adc, .mem (.indy z) => some (0x71#8, .adcIndy z)
  | .sbc, .imm v => some (0xE9#8, .sbcImm v)
  | .sbc, .mem (.zp z) => some (0xE5#8, .sbcZp z)
  | .sbc, .mem (.zpx z) => some (0xF5#8, .sbcZpx z)
  | .sbc, .mem (.abs a) => some (0xED#8, .sbcAbs a)
  | .sbc, .mem (.absx a) => some (0xFD#8, .sbcAbsx a)
  | .sbc, .mem (.absy a) => some (0xF9#8, .sbcAbsy a)
  | .sbc, .mem (.indx z) => some (0xE1#8, .sbcIndx z)
  | .sbc, .mem (.indy z) => some (0xF1#8, .sbcIndy z)
  | .cmp, .imm v => some (0xC9#8, .cmpImm v)
  | .cmp, .mem (.zp z) => some (0xC5#8, .cmpZp z)
  | .cmp, .mem (.zpx z) => some (0xD5#8, .cmpZpx z)
  | .cmp, .mem (.abs a) => some (0xCD#8, .cmpAbs a)
  | .cmp, .mem (.absx a) => some (0xDD#8, .cmpAbsx a)
  | .cmp, .mem (.absy a) => some (0xD9#8, .cmpAbsy a)
  | .cmp, .mem (.indx z) => some (0xC1#8, .cmpIndx z)
  | .cmp, .mem (.indy z) => some (0xD1#8, .cmpIndy z)
  | .cpx, .imm v => some (0xE0#8, .cpxImm v)
  | .cpx, .mem (.zp z) => some (0xE4#8, .cpxZp z)
  | .cpx, .mem (.abs a) => some (0xEC#8, .cpxAbs a)
  | .cpy, .imm v => some (0xC0#8, .cpyImm v)
  | .cpy, .mem (.zp z) => some (0xC4#8, .cpyZp z)
  | .cpy, .mem (.abs a) => some (0xCC#8, .cpyAbs a)
  | .and, .imm v => some (0x29#8, .andImm v)
  | .and, .mem (.zp z) => some (0x25#8, .andZp z)
  | .and, .mem (.zpx z) => some (0x35#8, .andZpx z)
  | .and, .mem (.abs a) => some (0x2D#8, .andAbs a)
  | .and, .mem (.absx a) => some (0x3D#8, .andAbsx a)
  | .and, .mem (.absy a) => some (0x39#8, .andAbsy a)
  | .and, .mem (.indx z) => some (0x21#8, .andIndx z)
  | .and, .mem (.indy z) => some (0x31#8, .andIndy z)
  | .ora, .imm v => some (0x09#8, .oraImm v)
  | .ora, .mem (.zp z) => some (0x05#8, .oraZp z)
  | .ora, .mem (.zpx z) => some (0x15#8, .oraZpx z)
  | .ora, .mem (.abs a) => some (0x0D#8, .oraAbs a)
  | .ora, .mem (.absx a) => some (0x1D#8, .oraAbsx a)
  | .ora, .mem (.absy a) => some (0x19#8, .oraAbsy a)
  | .ora, .mem (.indx z) => some (0x01#8, .oraIndx z)
  | .ora, .mem (.indy z) => some (0x11#8, .oraIndy z)
  | .eor, .imm v => some (0x49#8, .eorImm v)
  | .eor, .mem (.zp z) => some (0x45#8, .eorZp z)
  | .eor, .mem (.zpx z) => some (0x55#8, .eorZpx z)
  | .eor, .mem (.abs a) => some (0x4D#8, .eorAbs a)
  | .eor, .mem (.absx a) => some (0x5D#8, .eorAbsx a)
  | .eor, .mem (.absy a) => some (0x59#8, .eorAbsy a)
  | .eor, .mem (.indx z) => some (0x41#8, .eorIndx z)
  | .eor, .mem (.indy z) => some (0x51#8, .eorIndy z)
  | .bit, .mem (.zp z) => some (0x24#8, .bitZp z)
  | .bit, .mem (.abs a) => some (0x2C#8, .bitAbs a)
  | _, _ => none

/-- The stores, by mnemonic and operand, with the opcode byte of each (the Encoding lines of R214 to R216). -/
def storeInstr : Mnemonic → Form → Option (Byte × Instr)
  | .sta, .zp z => some (0x85#8, .staZp z)
  | .sta, .zpx z => some (0x95#8, .staZpx z)
  | .sta, .abs a => some (0x8D#8, .staAbs a)
  | .sta, .absx a => some (0x9D#8, .staAbsx a)
  | .sta, .absy a => some (0x99#8, .staAbsy a)
  | .sta, .indx z => some (0x81#8, .staIndx z)
  | .sta, .indy z => some (0x91#8, .staIndy z)
  | .stx, .zp z => some (0x86#8, .stxZp z)
  | .stx, .zpy z => some (0x96#8, .stxZpy z)
  | .stx, .abs a => some (0x8E#8, .stxAbs a)
  | .sty, .zp z => some (0x84#8, .styZp z)
  | .sty, .zpx z => some (0x94#8, .styZpx z)
  | .sty, .abs a => some (0x8C#8, .styAbs a)
  | _, _ => none

/-- The read-modify-write instructions, by mnemonic and operand, with the opcode byte of each (the Encoding lines of R258, R259, R285
to R288). -/
def modifyInstr : Mnemonic → Form → Option (Byte × Instr)
  | .inc, .zp z => some (0xE6#8, .incZp z)
  | .inc, .zpx z => some (0xF6#8, .incZpx z)
  | .inc, .abs a => some (0xEE#8, .incAbs a)
  | .inc, .absx a => some (0xFE#8, .incAbsx a)
  | .dec, .zp z => some (0xC6#8, .decZp z)
  | .dec, .zpx z => some (0xD6#8, .decZpx z)
  | .dec, .abs a => some (0xCE#8, .decAbs a)
  | .dec, .absx a => some (0xDE#8, .decAbsx a)
  | .asl, .zp z => some (0x06#8, .aslZp z)
  | .asl, .zpx z => some (0x16#8, .aslZpx z)
  | .asl, .abs a => some (0x0E#8, .aslAbs a)
  | .asl, .absx a => some (0x1E#8, .aslAbsx a)
  | .lsr, .zp z => some (0x46#8, .lsrZp z)
  | .lsr, .zpx z => some (0x56#8, .lsrZpx z)
  | .lsr, .abs a => some (0x4E#8, .lsrAbs a)
  | .lsr, .absx a => some (0x5E#8, .lsrAbsx a)
  | .rol, .zp z => some (0x26#8, .rolZp z)
  | .rol, .zpx z => some (0x36#8, .rolZpx z)
  | .rol, .abs a => some (0x2E#8, .rolAbs a)
  | .rol, .absx a => some (0x3E#8, .rolAbsx a)
  | .ror, .zp z => some (0x66#8, .rorZp z)
  | .ror, .zpx z => some (0x76#8, .rorZpx z)
  | .ror, .abs a => some (0x6E#8, .rorAbs a)
  | .ror, .absx a => some (0x7E#8, .rorAbsx a)
  | _, _ => none

/-! ### Read-modify-write and shifts -/

/-- The result of a read-modify-write mnemonic (R258, R259, R285 to R288), from the carry and the byte read. -/
def modifyResult (m : Mnemonic) (c : Bool) (v : Byte) : Byte :=
  match m with
  | .inc => BitVec.ofNat 8 (v.toNat + 1)
  | .dec => BitVec.ofNat 8 (v.toNat + 255)
  | .asl => BitVec.ofNat 8 (2 * v.toNat)
  | .lsr => BitVec.ofNat 8 (v.toNat / 2)
  | .rol => BitVec.ofNat 8 (2 * v.toNat + c.toNat)
  | .ror => BitVec.ofNat 8 (v.toNat / 2 + 128 * c.toNat)
  | _ => v

/-- The carry it leaves: bit 7 for a left shift, bit 0 for a right shift, the old carry for INC and DEC. -/
def modifyCarry (m : Mnemonic) (c : Bool) (v : Byte) : Bool :=
  match m with
  | .asl | .rol => decide (128 ≤ v.toNat)
  | .lsr | .ror => decide (v.toNat % 2 = 1)
  | _ => c

/-- Its flags: N and Z of the result, and the carry. -/
def modifyFlags (m : Mnemonic) (v : Byte) (p : Flags) : Flags :=
  { nz (modifyResult m p.c v) p with c := modifyCarry m p.c v }

/-- The accumulator forms, with their opcode bytes (R285 to R288). -/
def shiftAccInstr : Mnemonic → Option (Byte × Instr)
  | .asl => some (0x0A#8, .aslAcc)
  | .lsr => some (0x4A#8, .lsrAcc)
  | .rol => some (0x2A#8, .rolAcc)
  | .ror => some (0x6A#8, .rorAcc)
  | _ => none

/-! ### One-byte instructions on registers and flags -/

/-- The CPU after a transfer, or a register increment or decrement, PC aside, with the opcode byte (R231 to R236, R260 to R263). -/
def registerInstr (c : Cpu) : Mnemonic → Option (Byte × Instr × Cpu)
  | .tax => some (0xAA#8, .tax, { c with x := c.a, p := nz c.a c.p })
  | .tay => some (0xA8#8, .tay, { c with y := c.a, p := nz c.a c.p })
  | .tsx => some (0xBA#8, .tsx, { c with x := c.sp, p := nz c.sp c.p })
  | .txa => some (0x8A#8, .txa, { c with a := c.x, p := nz c.x c.p })
  | .txs => some (0x9A#8, .txs, { c with sp := c.x })
  | .tya => some (0x98#8, .tya, { c with a := c.y, p := nz c.y c.p })
  | .inx => some (0xE8#8, .inx, { c with x := c.x + 1, p := nz (c.x + 1) c.p })
  | .iny => some (0xC8#8, .iny, { c with y := c.y + 1, p := nz (c.y + 1) c.p })
  | .dex => some (0xCA#8, .dex, { c with x := c.x - 1, p := nz (c.x - 1) c.p })
  | .dey => some (0x88#8, .dey, { c with y := c.y - 1, p := nz (c.y - 1) c.p })
  | _ => none

/-- The flags after a flag instruction or NOP, with the opcode byte (R331 to R338). -/
def flagInstr (p : Flags) : Mnemonic → Option (Byte × Instr × Flags)
  | .clc => some (0x18#8, .clc, { p with c := false })
  | .cld => some (0xD8#8, .cld, { p with d := false })
  | .cli => some (0x58#8, .cli, { p with i := false })
  | .clv => some (0xB8#8, .clv, { p with v := false })
  | .sec => some (0x38#8, .sec, { p with c := true })
  | .sed => some (0xF8#8, .sed, { p with d := true })
  | .sei => some (0x78#8, .sei, { p with i := true })
  | .nop => some (0xEA#8, .nop, p)
  | _ => none

/-! ### The stack and control transfer -/

/-- RAM after pushing bytes in order with S = `sp`: each at 0x0100 + S, S going down (R14, R31). -/
def pushed : List Byte → Byte → Memory → Memory
  | [], _, m => m
  | b :: bs, sp, m => pushed bs (sp - 1#8) (Memory.put (0x100 + sp.toNat) b m)

/-- The RAM byte that the k-th pull from S reads (R14, R31). -/
def stackByte (sp : Byte) (k : Nat) (s : State) : Byte := ramByte (BitVec.ofNat 16 (0x100 + (sp.toNat + k) % 256)) s.bus.ram

/-- The high and the low byte of an address. -/
def high (a : Addr) : Byte := BitVec.ofNat 8 (a.toNat / 256)

def low (a : Addr) : Byte := BitVec.ofNat 8 a.toNat

/-- `hi ++ lo`. -/
def join (hi lo : Byte) : Addr := BitVec.ofNat 16 (256 * hi.toNat + lo.toNat)

/-- The exception entry of BRK, IRQ and NMI (R304, R365): the return address and the status byte are in RAM below S, I is set, PC is the
word the bus reads at the vector, and the rest is as the vector read leaves it. -/
def entered (ret : Addr) (brk : Bool) (vector : Addr) (s : State) : State :=
  let v := memRead16 vector s
  { v.2 with
    cpu := { s.cpu with sp := s.cpu.sp - 3, pc := v.1, p := { s.cpu.p with i := true } }
    bus := { s.bus with ram := pushed [high ret, low ret, statusByte brk s.cpu.p] s.cpu.sp s.bus.ram } }

/-- The branches: opcode byte, constructor and condition (R306 to R313). -/
def branchInstr : Mnemonic → Option (Byte × (Byte → Instr) × (Flags → Bool))
  | .bcc => some (0x90#8, .bcc, fun p => !p.c)
  | .bcs => some (0xB0#8, .bcs, fun p => p.c)
  | .beq => some (0xF0#8, .beq, fun p => p.z)
  | .bmi => some (0x30#8, .bmi, fun p => p.n)
  | .bne => some (0xD0#8, .bne, fun p => !p.z)
  | .bpl => some (0x10#8, .bpl, fun p => !p.n)
  | .bvc => some (0x50#8, .bvc, fun p => !p.v)
  | .bvs => some (0x70#8, .bvs, fun p => p.v)
  | _ => none

/-- The mnemonics that give their own next PC (R32, R184). -/
def transfers : List Mnemonic := [.jmp, .jsr, .rts, .rti, .brk, .bcc, .bcs, .beq, .bmi, .bne, .bpl, .bvc, .bvs]

/-- The mnemonics with an access that writes: the stores, read-modify-write, and what pushes (R211 to R304). -/
def writers : List Mnemonic := [.sta, .stx, .sty, .inc, .dec, .asl, .lsr, .rol, .ror, .pha, .php, .jsr, .brk]

/-- The writers of N and of Z (R34). -/
def nzWriters : List Mnemonic :=
  [.lda, .ldx, .ldy, .tax, .tay, .tsx, .txa, .tya, .pla, .adc, .sbc, .and, .ora, .eor, .cmp, .cpx, .cpy, .inc, .dec, .inx, .iny,
    .dex, .dey, .asl, .lsr, .rol, .ror, .bit, .plp, .rti]

/-! ### Tables -/

/-- The region of each of the seven address ranges, by mode (R102). -/
def regionRow : Nat → List Region
  | 0 => [.ram, .ram, .ram, .ram, .ram, .ram, .ram]
  | 1 => [.ram, .ram, .ram, .ram, .ram, .ram, .ram]
  | 2 => [.ram, .ram, .ram, .romh, .ram, .char, .kernal]
  | 3 => [.ram, .ram, .roml, .romh, .ram, .char, .kernal]
  | 4 => [.ram, .ram, .ram, .ram, .ram, .ram, .ram]
  | 5 => [.ram, .ram, .ram, .ram, .ram, .io, .ram]
  | 6 => [.ram, .ram, .ram, .romh, .ram, .io, .kernal]
  | 7 => [.ram, .ram, .roml, .romh, .ram, .io, .kernal]
  | 8 => [.ram, .ram, .ram, .ram, .ram, .ram, .ram]
  | 9 => [.ram, .ram, .ram, .ram, .ram, .char, .ram]
  | 10 => [.ram, .ram, .ram, .ram, .ram, .char, .kernal]
  | 11 => [.ram, .ram, .roml, .basic, .ram, .char, .kernal]
  | 12 => [.ram, .ram, .ram, .ram, .ram, .ram, .ram]
  | 13 => [.ram, .ram, .ram, .ram, .ram, .io, .ram]
  | 14 => [.ram, .ram, .ram, .ram, .ram, .io, .kernal]
  | 15 => [.ram, .ram, .roml, .basic, .ram, .io, .kernal]
  | 16 => [.ram, .unmapped, .roml, .unmapped, .unmapped, .io, .romh]
  | 17 => [.ram, .unmapped, .roml, .unmapped, .unmapped, .io, .romh]
  | 18 => [.ram, .unmapped, .roml, .unmapped, .unmapped, .io, .romh]
  | 19 => [.ram, .unmapped, .roml, .unmapped, .unmapped, .io, .romh]
  | 20 => [.ram, .unmapped, .roml, .unmapped, .unmapped, .io, .romh]
  | 21 => [.ram, .unmapped, .roml, .unmapped, .unmapped, .io, .romh]
  | 22 => [.ram, .unmapped, .roml, .unmapped, .unmapped, .io, .romh]
  | 23 => [.ram, .unmapped, .roml, .unmapped, .unmapped, .io, .romh]
  | 24 => [.ram, .ram, .ram, .ram, .ram, .ram, .ram]
  | 25 => [.ram, .ram, .ram, .ram, .ram, .char, .ram]
  | 26 => [.ram, .ram, .ram, .ram, .ram, .char, .kernal]
  | 27 => [.ram, .ram, .ram, .basic, .ram, .char, .kernal]
  | 28 => [.ram, .ram, .ram, .ram, .ram, .ram, .ram]
  | 29 => [.ram, .ram, .ram, .ram, .ram, .io, .ram]
  | 30 => [.ram, .ram, .ram, .ram, .ram, .io, .kernal]
  | 31 => [.ram, .ram, .ram, .basic, .ram, .io, .kernal]
  | _ => []

/-- Mode = E*16 + G*8 + C*4 + H*2 + L (R102). -/
def bankMode (b : BankState) : Nat :=
  16 * b.exrom.toNat + 8 * b.game.toNat + 4 * (b.latch.toNat / 4 % 2) + 2 * (b.latch.toNat / 2 % 2) + b.latch.toNat % 2

/-- Which of the seven ranges of R102 an address is in. -/
def addressRange (a : Addr) : Nat :=
  if a.toNat < 0x1000 then 0
  else if a.toNat < 0x8000 then 1
  else if a.toNat < 0xA000 then 2
  else if a.toNat < 0xC000 then 3
  else if a.toNat < 0xD000 then 4
  else if a.toNat < 0xE000 then 5
  else 6

/-- The 105 illegal opcode bytes of R145. -/
def illegalBytes : List Byte :=
  [0x02#8, 0x03#8, 0x04#8, 0x07#8, 0x0B#8, 0x0C#8, 0x0F#8, 0x12#8, 0x13#8, 0x14#8, 0x17#8, 0x1A#8, 0x1B#8, 0x1C#8, 0x1F#8] ++
  [0x22#8, 0x23#8, 0x27#8, 0x2B#8, 0x2F#8, 0x32#8, 0x33#8, 0x34#8, 0x37#8, 0x3A#8, 0x3B#8, 0x3C#8, 0x3F#8, 0x42#8, 0x43#8] ++
  [0x44#8, 0x47#8, 0x4B#8, 0x4F#8, 0x52#8, 0x53#8, 0x54#8, 0x57#8, 0x5A#8, 0x5B#8, 0x5C#8, 0x5F#8, 0x62#8, 0x63#8, 0x64#8] ++
  [0x67#8, 0x6B#8, 0x6F#8, 0x72#8, 0x73#8, 0x74#8, 0x77#8, 0x7A#8, 0x7B#8, 0x7C#8, 0x7F#8, 0x80#8, 0x82#8, 0x83#8, 0x87#8] ++
  [0x89#8, 0x8B#8, 0x8F#8, 0x92#8, 0x93#8, 0x97#8, 0x9B#8, 0x9C#8, 0x9E#8, 0x9F#8, 0xA3#8, 0xA7#8, 0xAB#8, 0xAF#8, 0xB2#8] ++
  [0xB3#8, 0xB7#8, 0xBB#8, 0xBF#8, 0xC2#8, 0xC3#8, 0xC7#8, 0xCB#8, 0xCF#8, 0xD2#8, 0xD3#8, 0xD4#8, 0xD7#8, 0xDA#8, 0xDB#8] ++
  [0xDC#8, 0xDF#8, 0xE2#8, 0xE3#8, 0xE7#8, 0xEB#8, 0xEF#8, 0xF2#8, 0xF3#8, 0xF4#8, 0xF7#8, 0xFA#8, 0xFB#8, 0xFC#8, 0xFF#8]

/-- Track, SPT, first sector index and offset of R493's table. -/
def diskTable : List (Nat × Nat × Nat × Nat) :=
  [(1, 21, 0, 0x00000), (2, 21, 21, 0x01500), (3, 21, 42, 0x02A00), (4, 21, 63, 0x03F00), (5, 21, 84, 0x05400)] ++
  [(6, 21, 105, 0x06900), (7, 21, 126, 0x07E00), (8, 21, 147, 0x09300), (9, 21, 168, 0x0A800), (10, 21, 189, 0x0BD00)] ++
  [(11, 21, 210, 0x0D200), (12, 21, 231, 0x0E700), (13, 21, 252, 0x0FC00), (14, 21, 273, 0x11100), (15, 21, 294, 0x12600)] ++
  [(16, 21, 315, 0x13B00), (17, 21, 336, 0x15000), (18, 19, 357, 0x16500), (19, 19, 376, 0x17800), (20, 19, 395, 0x18B00)] ++
  [(21, 19, 414, 0x19E00), (22, 19, 433, 0x1B100), (23, 19, 452, 0x1C400), (24, 19, 471, 0x1D700), (25, 18, 490, 0x1EA00)] ++
  [(26, 18, 508, 0x1FC00), (27, 18, 526, 0x20E00), (28, 18, 544, 0x22000), (29, 18, 562, 0x23200), (30, 18, 580, 0x24400)] ++
  [(31, 17, 598, 0x25600), (32, 17, 615, 0x26700), (33, 17, 632, 0x27800), (34, 17, 649, 0x28900), (35, 17, 666, 0x29A00)]

/-- The default base counts, by the groups of R160. -/
def baseCycles (m : Mnemonic) (md : Mode) : Nat :=
  if m ∈ [.ora, .and, .eor, .adc, .lda, .cmp, .sbc] then
    match md with
    | .imm => 2
    | .zp => 3
    | .indy => 5
    | .indx => 6
    | _ => 4
  else if m = .sta then
    match md with
    | .zp => 3
    | .zpx | .abs => 4
    | .absx | .absy => 5
    | _ => 6
  else if m ∈ [.asl, .lsr, .rol, .ror, .inc, .dec] then
    match md with
    | .acc => 2
    | .zp => 5
    | .absx => 7
    | _ => 6
  else if m ∈ [.ldx, .ldy, .stx, .sty, .cpx, .cpy, .bit] then
    match md with
    | .imm => 2
    | .zp => 3
    | _ => 4
  else if m = .jmp then (if md = .abs then 3 else 5)
  else if m ∈ [.jsr, .rts, .rti] then 6
  else if m = .brk then 7
  else if m ∈ [.pha, .php] then 3
  else if m ∈ [.pla, .plp] then 4
  else 2

/-- The 23 read instructions that pay for a crossed page (R160). -/
def pageCrossers : List (Mnemonic × Mode) :=
  [(.ora, .indy), (.ora, .absy), (.ora, .absx), (.and, .indy), (.and, .absy), (.and, .absx), (.eor, .indy), (.eor, .absy)] ++
  [(.eor, .absx), (.adc, .indy), (.adc, .absy), (.adc, .absx), (.lda, .indy), (.lda, .absy), (.ldy, .absx), (.lda, .absx)] ++
  [(.ldx, .absy), (.cmp, .indy), (.cmp, .absy), (.cmp, .absx), (.sbc, .indy), (.sbc, .absy), (.sbc, .absx)]

/-- The default cycle row of a form (R160): a branch adds 1 when taken and 1 more into another page. -/
def defaultRow (m : Mnemonic) (md : Mode) : CycleRow where
  mnemonic := m
  mode := md
  base := baseCycles m md
  crossed := if (m, md) ∈ pageCrossers ∨ md = .rel then 1 else 0
  taken := if md = .rel then 1 else 0

/-! ### Engine -/

/-- The machine is at an instruction boundary where it will fetch: Running, and no breakpoint at PC (R181, R183). -/
def canFetch (s : State) : Prop := s.engine.status = .running ∧ s.engine.breakpoint ≠ some s.cpu.pc

/-- The per-instruction form of notification (R190): CIA1's ticks, then CIA2's with an NMI sample after each, then the video chip's. -/
def notifiedPerInstruction (c : Nat) (s : State) : State :=
  let s1 := { s with cia1 := Cia.tick^[c] s.cia1 }
  let s2 := (fun u : State => sampleNmi { u with cia2 := u.cia2.tick })^[c] s1
  { s2 with vic := (Vic.tick s.config.geometry)^[c] s2.vic, engine := { s2.engine with cycles := s2.engine.cycles + c } }

/-- The byte at PC is no instruction by the Config's table (R140, R182). -/
def fetchesIllegal (s : State) : Prop :=
  decodeWith s.config.isa [busByte s.cpu.pc s] = .error (.illegalOpcode (busByte s.cpu.pc s))

/-- The poll will enter an interrupt (R187). -/
def willEnter (s : State) : Bool := s.engine.nmiPending || (irqLine s && !s.cpu.p.i)

/-- A read of `a` reaches CIA1's interrupt control register: IO is visible there, and the index is 0x0D (R103, R111). -/
def readsIcr1 (a : Addr) (s : State) : Prop :=
  resolve a s.bus.bank = .io ∧ 0xDC00 ≤ a.toNat ∧ a.toNat < 0xDD00 ∧ a.toNat % 16 = 13

/-- The same for CIA2. -/
def readsIcr2 (a : Addr) (s : State) : Prop :=
  resolve a s.bus.bank = .io ∧ 0xDD00 ≤ a.toNat ∧ a.toNat < 0xDE00 ∧ a.toNat % 16 = 13

/-- A hexadecimal digit, in either case, and its value (R354). -/
def digitValue (c : Char) : Option Nat :=
  if 48 ≤ c.toNat ∧ c.toNat ≤ 57 then some (c.toNat - 48)
  else if 65 ≤ c.toNat ∧ c.toNat ≤ 70 then some (c.toNat - 55)
  else if 97 ≤ c.toNat ∧ c.toNat ≤ 102 then some (c.toNat - 87)
  else none

/-- Well-formed breakpoint text: 1 to 4 hexadecimal digits (R354). -/
def goodText (t : String) : Prop := 1 ≤ t.toList.length ∧ t.toList.length ≤ 4 ∧ ∀ c ∈ t.toList, (digitValue c).isSome = true

/-- Its value (R354). -/
def textValue (t : String) : Nat := t.toList.foldl (fun n c => 16 * n + (digitValue c).getD 0) 0

/-- The byte at place `n` of a decimal number, two digits to a byte. -/
def bcd (n : Nat) : Byte := BitVec.ofNat 8 (16 * (n / 10) + n % 10)

end Sys2Proof.Claims

open Sys2Proof Sys2Proof.Machine Sys2Proof.Claims

/-! ### Encoding -/

/-- Decoding the encoding of a well-formed instruction, whatever follows it, gives it back with every operand bit (R140, R141, R144). -/
def Obligations.DecodeOfEncodeIsTheInstruction : Prop :=
  ∀ (i : Instr) (rest : List Byte), i.wellFormed = true → decodeBytes (encode i ++ rest) = .ok (i, rest)

/-- Each word has one meaning: what decodes is exactly the encoding of a well-formed instruction, of its mode's length. -/
def Obligations.OnlyEncodingsDecode : Prop :=
  ∀ (bs rest : List Byte) (i : Instr), decodeBytes bs = .ok (i, rest) →
    i.wellFormed = true ∧ bs = encode i ++ rest ∧ (encode i).length = i.mode.length

/-- One word of each family, written out from the spec's encodings, decodes to its instruction. -/
def Obligations.SampleWordsDecode : Prop :=
  decodeTableWord 16 0x34A9 = some (.ldaImm 0x34#8) ∧ decodeTableWord 24 0xD0208D = some (.staAbs 0xD020#16) ∧
  decodeTableWord 8 0x48 = some .pha ∧ decodeTableWord 16 0x2269 = some (.adcImm 0x22#8) ∧
  decodeTableWord 16 0x2066 = some (.rorZp 0x20#8) ∧ decodeTableWord 24 0x03006C = some (.jmpInd 0x0300#16) ∧
  decodeTableWord 16 0xFBD0 = some (.bne 0xFB#8) ∧ decodeTableWord 8 0x78 = some .sei

/-! ### The engine -/

/-- R181, R182, R184: when the bytes at PC decode to an instruction, the step is that instruction's execution in the state the fetch left,
then the NMI sample, the notified cycles and the poll (`finishStep`). The operand bytes are read by the fetch (log 6), and the cycle
count passes through `aux.reported` (log 5): both are the model's way to say R184. -/
def Obligations.StepRunsTheDecodedInstruction : Prop :=
  ∀ (s : State) (i : Instr) (rest : List Byte), canFetch s → decodeWith s.config.isa (fetchBytes s).1 = .ok (i, rest) →
    ∃ t, exec i (fetchBytes s).2 = .next t ∧ step s = .next (finishStep t) ∧
      finishStep t = poll (notify t.aux.reported (sampleNmi { t with aux := { t.aux with reported := 0 } }))

/-- Where the bytes of an instruction of the Config's table stand at PC and reading them has no effect (they are no draws and no visible
ICR), the step is that instruction executed in the state itself (R32, R182: ascending addresses, mod 2^16). The default table has every
instruction. -/
def Obligations.StepRunsTheInstructionInMemory : Prop :=
  (∀ (s : State) (i : Instr), s.config.isa = defaultIsa → decodeWith s.config.isa (encode i) = .ok (i, [])) ∧
  ∀ (s : State) (i : Instr), canFetch s → decodeWith s.config.isa (encode i) = .ok (i, []) →
    (∀ (k : Nat) (b : Byte), (encode i)[k]? = some b →
      busSource (s.cpu.pc + BitVec.ofNat 16 k) s = some b ∧ ¬readsIcr1 (s.cpu.pc + BitVec.ofNat 16 k) s ∧
        ¬readsIcr2 (s.cpu.pc + BitVec.ofNat 16 k) s) →
    ∃ t, exec i s = .next t ∧ step s = .next (finishStep t)

/-- R183: at PC = breakpoint the step halts before any access; only the status changes. From a state that is Halted, or Faulted, no step
leads on (R36, R195). -/
def Obligations.BreakpointHaltsBeforeTheFetch : Prop :=
  (∀ s : State, s.engine.status = .running → s.engine.breakpoint = some s.cpu.pc →
    step s = .next { s with engine := { s.engine with status := .halted s.cpu.pc } }) ∧
  ∀ s u : State, (∃ pc, s.engine.status = .halted pc) ∨ (∃ f, s.engine.status = .faulted f) → step s ≠ .next u

/-- R145: the 105 listed bytes, and no other, are no instruction by the default table. R352: a step that fetches a byte that the Config's
table has no instruction for ends in the fault, with PC on it, no register or flag changed, no cycle notified, and the fetch's read effect
kept (log 7); no step follows. -/
def Obligations.IllegalOpcodesFault : Prop :=
  illegalBytes.length = 105 ∧ illegalBytes.Nodup ∧
  (∀ (op : Byte) (bs : List Byte), op ∈ illegalBytes ↔ decodeBytes (op :: bs) = .error (.illegalOpcode op)) ∧
  (∀ s : State, canFetch s → fetchesIllegal s →
    ∃ t, step s = .next t ∧
      t = { afterRead s.cpu.pc s with
            engine := { s.engine with status := .faulted (.illegalOpcode s.cpu.pc (busByte s.cpu.pc s)) } } ∧
      t.cpu = s.cpu ∧ t.bus = s.bus ∧ t.vic = s.vic ∧ t.engine.cycles = s.engine.cycles ∧
      ∀ u, step t ≠ .next u)

/-- R358: execution of an instruction always completes; it changes no Config (R20), no engine field, no input, no cartridge and no cartridge
line. -/
def Obligations.ExecutionAlwaysCompletes : Prop :=
  ∀ (i : Instr) (s : State), ∃ t, exec i s = .next t ∧ t.config = s.config ∧ t.engine = s.engine ∧ t.input = s.input ∧
    t.bus.cart = s.bus.cart ∧ t.bus.bank.game = s.bus.bank.game ∧ t.bus.bank.exrom = s.bus.bank.exrom

/-- R20, R37, R40, R48: no step changes the Config, the breakpoint, the input state, the cartridge or its lines, and time does not go
back. -/
def Obligations.StepKeepsWhatTheHostOwns : Prop :=
  ∀ s t : State, step s = .next t →
    t.config = s.config ∧ t.engine.breakpoint = s.engine.breakpoint ∧ t.input = s.input ∧ t.bus.cart = s.bus.cart ∧
      t.bus.bank.game = s.bus.bank.game ∧ t.bus.bank.exrom = s.bus.bank.exrom ∧ s.engine.cycles ≤ t.engine.cycles

/-- R190, R191: per-cycle notification reaches the state of the per-instruction form, and gives every observer exactly c ticks. -/
def Obligations.NotifyAgreesWithThePerInstructionForm : Prop :=
  ∀ (c : Nat) (s : State),
    notify c s = notifiedPerInstruction c s ∧ (notify c s).cia1 = Cia.tick^[c] s.cia1 ∧
      (notify c s).cia2 = Cia.tick^[c] s.cia2 ∧ (notify c s).vic = (Vic.tick s.config.geometry)^[c] s.vic ∧
      (notify c s).engine.cycles = s.engine.cycles + c

/-- R188: the sampler latches a rising edge of CIA2's output and remembers the level; nothing else changes. R187: at the poll a pending
NMI is served first and its latch cleared; else an active IRQ line with I = 0; else nothing. -/
def Obligations.NmiEdgesAreLatchedAndServedFirst : Prop :=
  ∀ s : State,
    sampleNmi s =
      { s with engine := { s.engine with
          nmiPending :=
            if s.cia2.icrFlags &&& s.cia2.icrMask ≠ 0#5 ∧ s.engine.nmiPrev = false then true else s.engine.nmiPending
          nmiPrev := decide (s.cia2.icrFlags &&& s.cia2.icrMask ≠ 0#5) } } ∧
    (s.engine.nmiPending = true →
      poll s = interruptEntry .nmi { s with engine := { s.engine with nmiPending := false } }) ∧
    (s.engine.nmiPending = false → (s.cia1.irq || s.vic.irq) = true → s.cpu.p.i = false → poll s = interruptEntry .irq s) ∧
    (s.engine.nmiPending = false → ((s.cia1.irq || s.vic.irq) = false ∨ s.cpu.p.i = true) → poll s = s)

/-- R365: an entry pushes PC, high byte first, and the status byte with B = 0, sets I and nothing else in P, loads PC from the kind's
vector through the bus, samples the NMI and notifies 7 cycles. -/
def Obligations.InterruptEntryEffect : Prop :=
  ∀ s : State,
    interruptEntry .nmi s = notify 7 (sampleNmi (entered s.cpu.pc false 0xFFFA#16 s)) ∧
    interruptEntry .irq s = notify 7 (sampleNmi (entered s.cpu.pc false 0xFFFE#16 s))

/-- R366: an interrupt entry stacks the address of the next instruction and P with B = 0, touching RAM only at those three places; an RTI
that finds S and the stacked bytes as the entry left them resumes with P, PC and S as they were. -/
def Obligations.ReturnResumesTheInterruptedProgram : Prop :=
  ∀ (k : InterruptKind) (s u : State),
    u.cpu.sp = (interruptEntry k s).cpu.sp →
    (∀ j : Nat, 1 ≤ j → j ≤ 3 → stackByte u.cpu.sp j u = stackByte u.cpu.sp j (interruptEntry k s)) →
    (stackByte s.cpu.sp 0 (interruptEntry k s) = high s.cpu.pc ∧ stackByte s.cpu.sp 255 (interruptEntry k s) = low s.cpu.pc ∧
      stackByte s.cpu.sp 254 (interruptEntry k s) = statusByte false s.cpu.p) ∧
    (∀ b : Addr, (∀ j : Nat, 254 ≤ j → j ≤ 256 → b ≠ BitVec.ofNat 16 (0x100 + (s.cpu.sp.toNat + j) % 256)) →
      ramByte b (interruptEntry k s).bus.ram = ramByte b s.bus.ram) ∧
    exec .rti u =
      .next { u with
        cpu := { u.cpu with sp := s.cpu.sp, pc := s.cpu.pc, p := s.cpu.p }
        aux := { u.aux with reported := (u.config.cycleRow .rti .imp).base } }

/-- R546: a step that executes an instruction notifies the cycles it reported (`aux.reported`, log 5), and 7 more when its poll enters an
interrupt; a step that halts or faults notifies none. -/
def Obligations.StepNotifiesReportedCycles : Prop :=
  (∀ (s t : State) (i : Instr) (rest : List Byte), canFetch s → decodeWith s.config.isa (fetchBytes s).1 = .ok (i, rest) →
    exec i (fetchBytes s).2 = .next t →
    ∃ u, step s = .next u ∧
      u.engine.cycles = s.engine.cycles + t.aux.reported +
        (if willEnter (notify t.aux.reported (sampleNmi { t with aux := { t.aux with reported := 0 } })) then 7 else 0)) ∧
  (∀ s : State, s.engine.status = .running →
    s.engine.breakpoint = some s.cpu.pc ∨ fetchesIllegal s →
    ∃ u, step s = .next u ∧ u.engine.cycles = s.engine.cycles)

/-! ### Invariants and reset -/

/-- The reset state meets the invariant. -/
def Obligations.ResetMeetsTheInvariant : Prop := State.reset.Inv

/-- Every step keeps the invariant: memory and colour RAM canonical, the cartridge lines the cartridge's, the chips' unstored bits
clear, the raster position in range, the NMI sampler up to date. -/
def Obligations.EveryStepKeepsTheInvariant : Prop := ∀ s t : State, s.Inv → step s = .next t → t.Inv

/-- Every launch with a positive geometry (R440) gives a state that meets the invariant, every host event keeps it, and so every state that
steps and host events in any order reach meets it (R189). That host events are admitted after the run has ended is the model's choice
(log 19). -/
def Obligations.EveryReachableStateMeetsTheInvariant : Prop :=
  (∀ (l : LaunchArgs) (s : State), l.config.geometry.valid = true → launch l = .ok s → s.Inv) ∧
  (∀ (e : HostEvent) (s t : State), s.Inv → hostEvent e s = .ok t → t.Inv) ∧
  ∀ s : State, Reachable s → s.Inv

/-- R430, R460, and the other values R522 fixes; and the default Config (R10, R20): its instruction table, its policy, its geometry (R440)
and the cycles of every instruction (R160). That the reset state holds the default Config is the model's choice (log 9). -/
def Obligations.ResetValues : Prop :=
  (∀ c : Cia, c = State.reset.cia1 ∨ c = State.reset.cia2 →
    c.pra = 0x00#8 ∧ c.prb = 0x00#8 ∧ c.ddra = 0x00#8 ∧ c.ddrb = 0x00#8 ∧ c.ta = 0xFFFF#16 ∧ c.tb = 0xFFFF#16 ∧
      c.taLatch = 0xFFFF#16 ∧ c.tbLatch = 0xFFFF#16 ∧ c.cra = 0x00#8 ∧ c.crb = 0x00#8 ∧ c.icrFlags = 0#5 ∧ c.icrMask = 0#5 ∧
      c.irq = false) ∧
  State.reset.cia1.id = .cia1 ∧ State.reset.cia2.id = .cia2 ∧ State.reset.cia2.paEff = 0xFF#8 ∧ vbank State.reset = 0#2 ∧
  State.reset.vic.rasterLine = 0 ∧ State.reset.vic.rasterCycle = 0 ∧ (∀ i : Nat, State.reset.vic.reg i = 0x00#8) ∧
  State.reset.vic.rasterCompare = 0#9 ∧ State.reset.vic.irqFlags = 0#4 ∧ State.reset.vic.irqEnable = 0#4 ∧
  State.reset.vic.badlineEnable = false ∧ State.reset.vic.frame = 0 ∧ State.reset.vic.irq = false ∧
  State.reset.cpu.sp = 0xFD#8 ∧ State.reset.cpu.p.i = true ∧ State.reset.engine.status = .running ∧
  State.reset.engine.cycles = 0 ∧ State.reset.engine.nmiPrev = false ∧ State.reset.engine.nmiPending = false ∧
  State.reset.bus.bank.latch = 0x37#8 ∧ State.reset.bus.bank.game = true ∧ State.reset.bus.bank.exrom = true ∧
  State.reset.bus.cart = none ∧ bankMode State.reset.bus.bank = 31 ∧
  State.reset.config.isa = defaultIsa ∧ State.reset.config.illegal = .fault ∧ State.reset.config.geometry.cyclesPerLine = 63 ∧
  State.reset.config.geometry.linesPerFrame = 312 ∧
  ∀ i : Instr, State.reset.config.cycleRow i.mnemonic i.mode = defaultRow i.mnemonic i.mode

/-- R521: launch reads PC from 0xFFFC through the bus under the lines it attached. Without Ultimax lines the bytes are the KERNAL's and
the state is `State.reset` with the Config, the breakpoint, the cartridge and its lines; with them they are the image's bytes where it has
them. -/
def Obligations.LaunchReadsTheResetVector : Prop :=
  (∀ (g : MachineConfig) (bp : Option Addr),
    launchState g bp none = { State.reset with config := g, engine := { State.reset.engine with breakpoint := bp } }) ∧
  (∀ (g : MachineConfig) (bp : Option Addr) (c : Cart), ¬(c.game = false ∧ c.exrom = true) →
    launchState g bp (some c) =
      { State.reset with
        config := g
        engine := { State.reset.engine with breakpoint := bp }
        bus := { State.reset.bus with
          cart := some c
          bank := { State.reset.bus.bank with game := c.game, exrom := c.exrom } } }) ∧
  State.reset.cpu.pc = join (Config.romKernal 0x1FFD#13) (Config.romKernal 0x1FFC#13) ∧
  (∀ (g : MachineConfig) (bp : Option Addr) (c : Cart) (lo hi : Byte), c.game = false → c.exrom = true → c.load.toNat ≤ 0xFFFC →
    c.image[0xFFFC - c.load.toNat]? = some lo → c.image[0xFFFD - c.load.toNat]? = some hi →
    (launchState g bp (some c)).cpu.pc = join hi lo)

/-- R354: launch succeeds exactly when the text is absent or 1 to 4 hexadecimal digits, the cartridge file can be read and the ROM images
have their sizes; it then gives the launch state of the Config, the text's value as breakpoint and the cartridge (R520); and every failure
is a ConfigError. -/
def Obligations.LaunchChecksTheConfiguration : Prop :=
  (∀ l : LaunchArgs,
    (∃ s, launch l = .ok s) ↔
      ((∀ t, l.breakpointText = some t → goodText t) ∧ l.cart ≠ .missingFile ∧ l.cart ≠ .readFailure ∧ l.basicSize = 8192 ∧
        l.kernalSize = 8192 ∧ l.charSize = 4096)) ∧
  (∀ (l : LaunchArgs) (s : State), launch l = .ok s →
    s = launchState l.config (l.breakpointText.map fun t => BitVec.ofNat 16 (textValue t))
      (match l.cart with
        | .file c => some c
        | .absent | .missingFile | .readFailure => none)) ∧
  (∀ (l : LaunchArgs) (t : String) (s : State), l.breakpointText = some t → launch l = .ok s →
    s.engine.breakpoint = some (BitVec.ofNat 16 (textValue t))) ∧
  (∀ (l : LaunchArgs) (s : State), l.breakpointText = none → launch l = .ok s → s.engine.breakpoint = none) ∧
  (∀ (l : LaunchArgs) (e : HostError), launch l = .error e → ∃ what, e = .configError what)

/-! ### The bus -/

/-- R102: the region at every address under each of the 32 bank configurations. -/
def Obligations.RegionTable : Prop :=
  ∀ (a : Addr) (b : BankState), (regionRow (bankMode b))[addressRange a]? = some (resolve a b)

/-- R110, R104, R105: what a read returns, by the visible region; `none` from `busSource` is a draw. -/
def Obligations.ReadReturnsTheVisibleByte : Prop :=
  ∀ (a : Addr) (s : State),
    busSource 0x0001#16 s = some s.bus.bank.latch ∧
    (a ≠ 0x0001#16 →
      (resolve a s.bus.bank = .ram → busSource a s = some (ramByte a s.bus.ram)) ∧
      (resolve a s.bus.bank = .basic → busSource a s = some (Config.romBasic (BitVec.ofNat 13 (a.toNat - 0xA000)))) ∧
      (resolve a s.bus.bank = .kernal → busSource a s = some (Config.romKernal (BitVec.ofNat 13 (a.toNat - 0xE000)))) ∧
      (resolve a s.bus.bank = .char → busSource a s = some (Config.romChar (BitVec.ofNat 12 (a.toNat - 0xD000)))) ∧
      (resolve a s.bus.bank = .unmapped → busSource a s = none) ∧
      (resolve a s.bus.bank = .roml ∨ resolve a s.bus.bank = .romh →
        (∀ c, s.bus.cart = some c → c.load.toNat ≤ a.toNat → busSource a s = c.image[a.toNat - c.load.toNat]?) ∧
        (∀ c, s.bus.cart = some c → a.toNat < c.load.toNat → busSource a s = none) ∧
        (s.bus.cart = none → busSource a s = none)) ∧
      (resolve a s.bus.bank = .io →
        (a.toNat < 0xD400 → busSource a s = s.vic.regRead (BitVec.ofNat 6 (a.toNat % 64))) ∧
        (0xD400 ≤ a.toNat → a.toNat < 0xD800 → busSource a s = none) ∧
        (0xD800 ≤ a.toNat → a.toNat < 0xDC00 →
          busSource a s = some (colorCell (BitVec.ofNat 10 (a.toNat - 0xD800)) s.bus.colorRam)) ∧
        (0xDC00 ≤ a.toNat → a.toNat < 0xDD00 → busSource a s = s.cia1.regRead s.input (BitVec.ofNat 4 (a.toNat % 16))) ∧
        (0xDD00 ≤ a.toNat → a.toNat < 0xDE00 → busSource a s = s.cia2.regRead s.input (BitVec.ofNat 4 (a.toNat % 16))) ∧
        (0xDE00 ≤ a.toNat → busSource a s = none)))

/-- R111: a read of a visible CIA interrupt control register clears that chip's flags; every other read leaves the machine as it was (the
model counts a draw where the value is one, log 4). -/
def Obligations.OnlyIcrReadsHaveAnEffect : Prop :=
  ∀ (a : Addr) (s : State),
    (readsIcr1 a s → afterRead a s = { s with cia1 := { s.cia1 with icrFlags := 0#5 } }) ∧
    (readsIcr2 a s → afterRead a s = { s with cia2 := { s.cia2 with icrFlags := 0#5 } }) ∧
    (¬readsIcr1 a s → ¬readsIcr2 a s →
      afterRead a s =
        match busSource a s with
        | some _ => s
        | none => { s with aux := { s.aux with draws := s.aux.draws + 1 } })

/-- R112, R90: what a write changes, by the visible region; nothing else changes. -/
def Obligations.WriteReachesOneStore : Prop :=
  ∀ (a : Addr) (v : Byte) (s : State),
    memWrite 0x0001#16 v s = { s with bus := { s.bus with bank := { s.bus.bank with latch := v } } } ∧
    (a ≠ 0x0001#16 →
      (resolve a s.bus.bank ∈ [.ram, .basic, .kernal, .char] →
        memWrite a v s = { s with bus := { s.bus with ram := Memory.put a.toNat v s.bus.ram } }) ∧
      (resolve a s.bus.bank = .unmapped → memWrite a v s = s) ∧
      (resolve a s.bus.bank ∈ [.roml, .romh] →
        memWrite a v s =
          if s.bus.bank.exrom = true ∧ s.bus.bank.game = false then s
          else { s with bus := { s.bus with ram := Memory.put a.toNat v s.bus.ram } }) ∧
      (resolve a s.bus.bank = .io →
        (a.toNat < 0xD400 → memWrite a v s = { s with vic := s.vic.regWrite (BitVec.ofNat 6 (a.toNat % 64)) v }) ∧
        (0xD400 ≤ a.toNat → a.toNat < 0xD800 → memWrite a v s = s) ∧
        (0xD800 ≤ a.toNat → a.toNat < 0xDC00 →
          memWrite a v s = { s with bus := { s.bus with colorRam := Memory.put (a.toNat - 0xD800) v s.bus.colorRam } }) ∧
        (0xDC00 ≤ a.toNat → a.toNat < 0xDD00 →
          memWrite a v s = { s with cia1 := s.cia1.regWrite (BitVec.ofNat 4 (a.toNat % 16)) v }) ∧
        (0xDD00 ≤ a.toNat → a.toNat < 0xDE00 →
          memWrite a v s = { s with cia2 := s.cia2.regWrite (BitVec.ofNat 4 (a.toNat % 16)) v }) ∧
        (0xDE00 ≤ a.toNat → memWrite a v s = s)))

/-- R119: when a read after a write returns what was written, the ROM or cartridge byte, or a draw. -/
def Obligations.ReadAfterWrite : Prop :=
  ∀ (a : Addr) (v : Byte) (s : State),
    (a = 0x0001#16 ∨ resolve a s.bus.bank = .ram ∨
        (resolve a s.bus.bank = .io ∧ 0xD800 ≤ a.toNat ∧ a.toNat < 0xDC00) →
      busSource a (memWrite a v s) = some v) ∧
    (a ≠ 0x0001#16 → resolve a s.bus.bank ∈ [.basic, .kernal, .char, .roml, .romh, .unmapped] →
      busSource a (memWrite a v s) = busSource a s) ∧
    (resolve a s.bus.bank = .io ∧ ((0xD400 ≤ a.toNat ∧ a.toNat < 0xD800) ∨ 0xDE00 ≤ a.toNat) →
      busSource a (memWrite a v s) = none) ∧
    (∀ b : Addr, b ≠ a → ramByte b (memWrite a v s).bus.ram = ramByte b s.bus.ram)

/-- R106, R107: insertion sets the cartridge and both lines at once, removal clears them, and neither changes anything else, in every run
status (after the end of a run: the model's choice, log 19). Under the standard layouts (R108) the next read sees the image. -/
def Obligations.CartridgeVisibility : Prop :=
  (∀ (c : Cart) (s : State),
    hostEvent (.insertCart c) s =
      .ok { s with bus := { s.bus with
        cart := some c
        bank := { s.bus.bank with game := c.game, exrom := c.exrom } } }) ∧
  (∀ s : State,
    hostEvent .removeCart s =
      .ok { s with bus := { s.bus with cart := none, bank := { s.bus.bank with game := true, exrom := true } } }) ∧
  (∀ (c : Cart) (s t : State) (a : Addr) (b : Byte), hostEvent (.insertCart c) s = .ok t →
    c.load.toNat ≤ a.toNat → c.image[a.toNat - c.load.toNat]? = some b →
    (c.load = 0x8000#16 ∧ c.exrom = false ∧ c.game = true ∧ s.bus.bank.latch.toNat % 4 = 3 ∧ a.toNat < 0xA000) ∨
      (c.load = 0x8000#16 ∧ c.exrom = false ∧ c.game = false ∧ s.bus.bank.latch.toNat % 4 = 3 ∧ a.toNat < 0xC000) ∨
      (c.load = 0x8000#16 ∧ c.exrom = true ∧ c.game = false ∧ a.toNat < 0xA000) ∨
      (c.load = 0xE000#16 ∧ c.exrom = true ∧ c.game = false) →
    busByte a t = b)

/-- R130: the video chip's view. It depends on RAM, colour RAM, ROM_CHAR and CIA2's port A registers only. -/
def Obligations.VideoViewReads : Prop :=
  (∀ (a14 : BitVec 14) (s : State),
    vicRead a14 s =
      if ((vbank s).toNat = 0 ∨ (vbank s).toNat = 2) ∧ 0x1000 ≤ a14.toNat ∧ a14.toNat < 0x2000 then
        Config.romChar (BitVec.ofNat 12 (a14.toNat - 0x1000))
      else ramByte (BitVec.ofNat 16 ((vbank s).toNat * 0x4000 + a14.toNat)) s.bus.ram) ∧
  (∀ s : State, (vbank s).toNat = 3 - ((s.cia2.pra ||| ~~~s.cia2.ddra).toNat % 4)) ∧
  (∀ (i : BitVec 10) (s : State), (vicColorRead i s).toNat = (colorCell i s.bus.colorRam).toNat % 16) ∧
  (∀ (a14 : BitVec 14) (i : BitVec 10) (s t : State), t.bus.ram = s.bus.ram → t.bus.colorRam = s.bus.colorRam →
    t.cia2 = s.cia2 → vicRead a14 t = vicRead a14 s ∧ vicColorRead i t = vicColorRead i s)

/-! ### Instructions: results, with the whole next state -/

/-- R211 to R213: LDA, LDX and LDY. -/
def Obligations.LoadInstructions : Prop :=
  ∀ (src : Source) (op : Byte) (i : Instr) (s : State),
    (readInstr .lda src = some (op, i) →
      encode i = src.bytes op ∧
      exec i s = .next (readDone .lda src s { s.cpu with a := src.value s, p := nz (src.value s) s.cpu.p })) ∧
    (readInstr .ldx src = some (op, i) →
      encode i = src.bytes op ∧
      exec i s = .next (readDone .ldx src s { s.cpu with x := src.value s, p := nz (src.value s) s.cpu.p })) ∧
    (readInstr .ldy src = some (op, i) →
      encode i = src.bytes op ∧
      exec i s = .next (readDone .ldy src s { s.cpu with y := src.value s, p := nz (src.value s) s.cpu.p }))

/-- R214 to R216: STA, STX and STY make one write at EA and read no operand. -/
def Obligations.StoreInstructions : Prop :=
  ∀ (m : Mnemonic) (f : Form) (op : Byte) (i : Instr) (s : State), storeInstr m f = some (op, i) →
    encode i = f.bytes op ∧
    exec i s =
      .next (let t := memWrite (f.ea s) (if m = .sta then s.cpu.a else if m = .stx then s.cpu.x else s.cpu.y) s
        { t with
          cpu := { s.cpu with pc := s.cpu.pc + BitVec.ofNat 16 f.length }
          aux := { s.aux with reported := f.cycles m s } })

/-- R251: ADC, binary by R250 when D = 0, decimal by R253 when D = 1. -/
def Obligations.AddInstruction : Prop :=
  ∀ (src : Source) (op : Byte) (i : Instr) (s : State), readInstr .adc src = some (op, i) →
    encode i = src.bytes op ∧
    exec i s =
      .next (let x := if s.cpu.p.d then decimalSum s.cpu.a (src.value s) s.cpu.p.c else binarySum s.cpu.a (src.value s) s.cpu.p.c
        readDone .adc src s { s.cpu with a := x.r, p := alu x s.cpu.p })

/-- R252: SBC, binary by R250 when D = 0, decimal by R254 when D = 1. -/
def Obligations.SubtractInstruction : Prop :=
  ∀ (src : Source) (op : Byte) (i : Instr) (s : State), readInstr .sbc src = some (op, i) →
    encode i = src.bytes op ∧
    exec i s =
      .next (let x := if s.cpu.p.d then decimalDifference s.cpu.a (src.value s) s.cpu.p.c
          else binaryDifference s.cpu.a (src.value s) s.cpu.p.c
        readDone .sbc src s { s.cpu with a := x.r, p := alu x s.cpu.p })

/-- On bytes that hold two decimal digits, decimal ADC and SBC add and subtract the numbers they stand for, with the carry and the borrow
of the decimal digits (read from R253 and R254). -/
def Obligations.DecimalModeComputesDecimalNumbers : Prop :=
  ∀ (a m : Nat) (c : Bool), a < 100 → m < 100 →
    (adcDec (bcd a) (bcd m) c).r = bcd ((a + m + c.toNat) % 100) ∧
    (adcDec (bcd a) (bcd m) c).c = decide (100 ≤ a + m + c.toNat) ∧
    (sbcDec (bcd a) (bcd m) c).r = bcd ((100 + a + c.toNat - 1 - m) % 100) ∧
    (sbcDec (bcd a) (bcd m) c).c = decide (m + 1 ≤ a + c.toNat)

/-- R255 to R257: CMP, CPX and CPY change only C, Z and N. -/
def Obligations.CompareInstructions : Prop :=
  ∀ (src : Source) (op : Byte) (i : Instr) (s : State),
    (readInstr .cmp src = some (op, i) →
      encode i = src.bytes op ∧
      exec i s = .next (readDone .cmp src s { s.cpu with p := comparison s.cpu.a (src.value s) s.cpu.p })) ∧
    (readInstr .cpx src = some (op, i) →
      encode i = src.bytes op ∧
      exec i s = .next (readDone .cpx src s { s.cpu with p := comparison s.cpu.x (src.value s) s.cpu.p })) ∧
    (readInstr .cpy src = some (op, i) →
      encode i = src.bytes op ∧
      exec i s = .next (readDone .cpy src s { s.cpu with p := comparison s.cpu.y (src.value s) s.cpu.p }))

/-- R281 to R284: AND, ORA and EOR write A and its N and Z; BIT writes Z from A and the operand, N and V from the operand. -/
def Obligations.LogicInstructions : Prop :=
  ∀ (src : Source) (op : Byte) (i : Instr) (s : State),
    (readInstr .and src = some (op, i) →
      encode i = src.bytes op ∧
      exec i s = .next (readDone .and src s { s.cpu with a := s.cpu.a &&& src.value s, p := nz (s.cpu.a &&& src.value s) s.cpu.p })) ∧
    (readInstr .ora src = some (op, i) →
      encode i = src.bytes op ∧
      exec i s = .next (readDone .ora src s { s.cpu with a := s.cpu.a ||| src.value s, p := nz (s.cpu.a ||| src.value s) s.cpu.p })) ∧
    (readInstr .eor src = some (op, i) →
      encode i = src.bytes op ∧
      exec i s = .next (readDone .eor src s { s.cpu with a := s.cpu.a ^^^ src.value s, p := nz (s.cpu.a ^^^ src.value s) s.cpu.p })) ∧
    (readInstr .bit src = some (op, i) →
      encode i = src.bytes op ∧
      exec i s =
        .next (readDone .bit src s { s.cpu with p := { s.cpu.p with
          n := decide ((src.value s).toNat / 128 % 2 = 1)
          v := decide ((src.value s).toNat / 64 % 2 = 1)
          z := decide (s.cpu.a &&& src.value s = 0#8) } }))

/-- R258, R259, R285 to R288: in the memory forms one read, one write of the result, then the flags; in the accumulator forms no data
access. -/
def Obligations.ReadModifyWriteAndShiftInstructions : Prop :=
  (∀ (m : Mnemonic) (f : Form) (op : Byte) (i : Instr) (s : State), modifyInstr m f = some (op, i) →
    encode i = f.bytes op ∧
    exec i s =
      .next (let v := busByte (f.ea s) s
        let t := memWrite (f.ea s) (modifyResult m s.cpu.p.c v) (afterRead (f.ea s) s)
        { t with
          cpu := { s.cpu with p := modifyFlags m v s.cpu.p, pc := s.cpu.pc + BitVec.ofNat 16 f.length }
          aux := { t.aux with reported := f.cycles m s } })) ∧
  (∀ (m : Mnemonic) (op : Byte) (i : Instr) (s : State), shiftAccInstr m = some (op, i) →
    encode i = [op] ∧
    exec i s =
      .next { s with
        cpu := { s.cpu with
          a := modifyResult m s.cpu.p.c s.cpu.a
          p := modifyFlags m s.cpu.a s.cpu.p
          pc := s.cpu.pc + 1 }
        aux := { s.aux with reported := (s.config.cycleRow m .acc).base } })

/-- R231 to R236, R260 to R263: the register transfers, increments and decrements. -/
def Obligations.RegisterInstructions : Prop :=
  ∀ (m : Mnemonic) (op : Byte) (i : Instr) (c : Cpu) (s : State), registerInstr s.cpu m = some (op, i, c) →
    encode i = [op] ∧
    exec i s = .next { s with cpu := { c with pc := s.cpu.pc + 1 }, aux := { s.aux with reported := (s.config.cycleRow m .imp).base } }

/-- R331 to R338: the flag instructions write their one flag, NOP nothing; only PC advances, and the cycles of the table are reported. -/
def Obligations.FlagInstructionsAndNop : Prop :=
  ∀ (m : Mnemonic) (op : Byte) (i : Instr) (p : Flags) (s : State), flagInstr s.cpu.p m = some (op, i, p) →
    encode i = [op] ∧
    exec i s =
      .next { s with cpu := { s.cpu with p := p, pc := s.cpu.pc + 1 }, aux := { s.aux with reported := (s.config.cycleRow m .imp).base } }

/-- R237 to R240: PHA and PHP write one byte of RAM at 0x0100 + S and decrement S; PLA and PLP increment S and read there. -/
def Obligations.StackInstructions : Prop :=
  ∀ s : State,
    (encode .pha = [0x48#8] ∧
      exec .pha s =
        .next { s with
          cpu := { s.cpu with sp := s.cpu.sp - 1, pc := s.cpu.pc + 1 }
          bus := { s.bus with ram := pushed [s.cpu.a] s.cpu.sp s.bus.ram }
          aux := { s.aux with reported := (s.config.cycleRow .pha .imp).base } }) ∧
    (encode .php = [0x08#8] ∧
      exec .php s =
        .next { s with
          cpu := { s.cpu with sp := s.cpu.sp - 1, pc := s.cpu.pc + 1 }
          bus := { s.bus with ram := pushed [statusByte true s.cpu.p] s.cpu.sp s.bus.ram }
          aux := { s.aux with reported := (s.config.cycleRow .php .imp).base } }) ∧
    (encode .pla = [0x68#8] ∧
      exec .pla s =
        .next { s with
          cpu := { s.cpu with
            a := stackByte s.cpu.sp 1 s
            p := nz (stackByte s.cpu.sp 1 s) s.cpu.p
            sp := s.cpu.sp + 1
            pc := s.cpu.pc + 1 }
          aux := { s.aux with reported := (s.config.cycleRow .pla .imp).base } }) ∧
    (encode .plp = [0x28#8] ∧
      exec .plp s =
        .next { s with
          cpu := { s.cpu with p := flagsOf (stackByte s.cpu.sp 1 s), sp := s.cpu.sp + 1, pc := s.cpu.pc + 1 }
          aux := { s.aux with reported := (s.config.cycleRow .plp .imp).base } })

/-- R300: JMP. The indirect form takes the high byte of its target from the pointer's own page. -/
def Obligations.JumpInstructions : Prop :=
  ∀ (a : Addr) (s : State),
    (encode (.jmpAbs a) = [0x4C#8, low a, high a] ∧
      exec (.jmpAbs a) s =
        .next { s with
          cpu := { s.cpu with pc := a }
          aux := { s.aux with reported := (s.config.cycleRow .jmp .abs).base } }) ∧
    (encode (.jmpInd a) = [0x6C#8, low a, high a] ∧
      exec (.jmpInd a) s =
        .next (let next : Addr := BitVec.ofNat 16 (256 * (a.toNat / 256) + (a.toNat + 1) % 256)
          let t := afterRead a s
          { afterRead next t with
            cpu := { s.cpu with pc := join (busByte next t) (busByte a s) }
            aux := { (afterRead next t).aux with reported := (s.config.cycleRow .jmp .ind).base } }))

/-- R301, R302: JSR pushes the address of its last byte; RTS pulls an address and adds 1. An RTS right after a JSR returns to the byte
after it, with S as before. -/
def Obligations.SubroutineInstructions : Prop :=
  (∀ (a : Addr) (s : State),
    encode (.jsr a) = [0x20#8, low a, high a] ∧
    exec (.jsr a) s =
      .next { s with
        cpu := { s.cpu with sp := s.cpu.sp - 2, pc := a }
        bus := { s.bus with ram := pushed [high (s.cpu.pc + 2), low (s.cpu.pc + 2)] s.cpu.sp s.bus.ram }
        aux := { s.aux with reported := (s.config.cycleRow .jsr .abs).base } }) ∧
  (∀ s : State,
    encode .rts = [0x60#8] ∧
    exec .rts s =
      .next { s with
        cpu := { s.cpu with
          sp := s.cpu.sp + 2
          pc := join (stackByte s.cpu.sp 2 s) (stackByte s.cpu.sp 1 s) + 1 }
        aux := { s.aux with reported := (s.config.cycleRow .rts .imp).base } }) ∧
  (∀ (a : Addr) (s t : State), exec (.jsr a) s = .next t →
    ∃ u, exec .rts t = .next u ∧ u.cpu = { s.cpu with pc := s.cpu.pc + 3 })

/-- R303: RTI pulls the status byte into the six flags, then PC; no 1 is added. R304: BRK takes its entry: PC + 2 and the status byte with
B = 1 on the stack, I set, D kept, PC from 0xFFFE through the bus. -/
def Obligations.BreakAndReturnFromInterrupt : Prop :=
  ∀ s : State,
    encode .rti = [0x40#8] ∧
    exec .rti s =
      .next { s with
        cpu := { s.cpu with
          p := flagsOf (stackByte s.cpu.sp 1 s)
          sp := s.cpu.sp + 3
          pc := join (stackByte s.cpu.sp 3 s) (stackByte s.cpu.sp 2 s) }
        aux := { s.aux with reported := (s.config.cycleRow .rti .imp).base } } ∧
    encode .brk = [0x00#8] ∧
    exec .brk s =
      .next (let t := entered (s.cpu.pc + 2) true 0xFFFE#16 s
        { t with aux := { t.aux with reported := (s.config.cycleRow .brk .imp).base } })

/-- R305 to R313: the branches, with their cycles (R160). -/
def Obligations.BranchInstructions : Prop :=
  ∀ (m : Mnemonic) (op : Byte) (mk : Byte → Instr) (cond : Flags → Bool) (off : Byte) (s : State),
    branchInstr m = some (op, mk, cond) →
    encode (mk off) = [op, off] ∧
    (cond s.cpu.p = true →
      exec (mk off) s =
        .next (let target : Addr := BitVec.ofInt 16 (s.cpu.pc.toNat + 2 + off.toInt)
          { s with
            cpu := { s.cpu with pc := target }
            aux := { s.aux with
              reported := (s.config.cycleRow m .rel).base + (s.config.cycleRow m .rel).taken +
                if (s.cpu.pc.toNat + 2) % 65536 / 256 = target.toNat / 256 then 0 else (s.config.cycleRow m .rel).crossed } })) ∧
    (cond s.cpu.p = false →
      exec (mk off) s =
        .next { s with
          cpu := { s.cpu with pc := s.cpu.pc + 2 }
          aux := { s.aux with reported := (s.config.cycleRow m .rel).base } })

/-! ### Instructions: what they leave alone -/

/-- The frame of the reading instructions: no store at all; every register but the destination, every flag but those named, and every
device but a CIA whose ICR the operand read clears. -/
def Obligations.ReadingInstructionsFrame : Prop :=
  ∀ (m : Mnemonic) (src : Source) (op : Byte) (i : Instr) (s t : State), readInstr m src = some (op, i) → exec i s = .next t →
    t.bus = s.bus ∧ (∀ a : Addr, ramByte a t.bus.ram = ramByte a s.bus.ram) ∧
    (∀ j : BitVec 10, colorCell j t.bus.colorRam = colorCell j s.bus.colorRam) ∧
    t.vic = s.vic ∧ t.input = s.input ∧ t.engine = s.engine ∧ t.config = s.config ∧
    (t.cia1 = s.cia1 ∨ t.cia1 = { s.cia1 with icrFlags := 0#5 }) ∧ (t.cia2 = s.cia2 ∨ t.cia2 = { s.cia2 with icrFlags := 0#5 }) ∧
    t.cpu.sp = s.cpu.sp ∧ (m ∉ [.lda, .adc, .sbc, .and, .ora, .eor] → t.cpu.a = s.cpu.a) ∧ (m ≠ .ldx → t.cpu.x = s.cpu.x) ∧
    (m ≠ .ldy → t.cpu.y = s.cpu.y) ∧ t.cpu.p.d = s.cpu.p.d ∧ t.cpu.p.i = s.cpu.p.i ∧
    (m ∉ [.adc, .sbc, .bit] → t.cpu.p.v = s.cpu.p.v) ∧ (m ∉ [.adc, .sbc, .cmp, .cpx, .cpy] → t.cpu.p.c = s.cpu.p.c)

/-- The frame of the storing instructions: the byte stored to is at the operand's effective address, and every RAM byte elsewhere reads as
before; colour RAM, the latch and the chips change only where that address selects them; the registers stay, and the flags but for
N, Z and a shift's C. -/
def Obligations.StoringInstructionsFrame : Prop :=
  ∀ (m : Mnemonic) (f : Form) (op : Byte) (i : Instr) (s t : State),
    storeInstr m f = some (op, i) ∨ modifyInstr m f = some (op, i) → exec i s = .next t →
    (∀ b : Addr, b ≠ f.ea s → ramByte b t.bus.ram = ramByte b s.bus.ram) ∧
    (∀ j : BitVec 10, ¬(resolve (f.ea s) s.bus.bank = .io ∧ (f.ea s).toNat = 0xD800 + j.toNat) →
      colorCell j t.bus.colorRam = colorCell j s.bus.colorRam) ∧
    (f.ea s ≠ 0x0001#16 → t.bus.bank = s.bus.bank) ∧ t.bus.cart = s.bus.cart ∧ t.input = s.input ∧ t.engine = s.engine ∧
    t.config = s.config ∧
    (¬(resolve (f.ea s) s.bus.bank = .io ∧ (f.ea s).toNat < 0xD400) → t.vic = s.vic) ∧
    (¬(resolve (f.ea s) s.bus.bank = .io ∧ 0xDC00 ≤ (f.ea s).toNat ∧ (f.ea s).toNat < 0xDD00) → t.cia1 = s.cia1) ∧
    (¬(resolve (f.ea s) s.bus.bank = .io ∧ 0xDD00 ≤ (f.ea s).toNat ∧ (f.ea s).toNat < 0xDE00) → t.cia2 = s.cia2) ∧
    t.cpu.a = s.cpu.a ∧ t.cpu.x = s.cpu.x ∧ t.cpu.y = s.cpu.y ∧ t.cpu.sp = s.cpu.sp ∧
    t.cpu.p.v = s.cpu.p.v ∧ t.cpu.p.d = s.cpu.p.d ∧ t.cpu.p.i = s.cpu.p.i ∧
    (m ∈ [.sta, .stx, .sty] → t.cpu.p = s.cpu.p) ∧ (m ∈ [.inc, .dec] → t.cpu.p.c = s.cpu.p.c)

/-- R34: each flag is written by the listed instructions only. -/
def Obligations.FlagsAreWrittenByTheListedInstructions : Prop :=
  ∀ (i : Instr) (s t : State), exec i s = .next t →
    (t.cpu.p.n ≠ s.cpu.p.n → i.mnemonic ∈ nzWriters) ∧ (t.cpu.p.z ≠ s.cpu.p.z → i.mnemonic ∈ nzWriters) ∧
    (t.cpu.p.v ≠ s.cpu.p.v → i.mnemonic ∈ [.adc, .sbc, .bit, .clv, .plp, .rti]) ∧
    (t.cpu.p.c ≠ s.cpu.p.c →
      i.mnemonic ∈ [.adc, .sbc, .cmp, .cpx, .cpy, .asl, .lsr, .rol, .ror, .clc, .sec, .plp, .rti]) ∧
    (t.cpu.p.d ≠ s.cpu.p.d → i.mnemonic ∈ [.cld, .sed, .plp, .rti]) ∧
    (t.cpu.p.i ≠ s.cpu.p.i → i.mnemonic ∈ [.cli, .sei, .plp, .rti, .brk])

/-- R30 to R32: each register is written by the listed instructions only, and PC moves past the instruction unless it transfers control;
only the mnemonics that store or push change anything on the bus or in the video chip. -/
def Obligations.RegistersAndMemoryAreWrittenByTheListed : Prop :=
  ∀ (i : Instr) (s t : State), exec i s = .next t →
    (t.cpu.a ≠ s.cpu.a →
      i.mnemonic ∈ [.lda, .pla, .txa, .tya, .adc, .sbc, .and, .ora, .eor] ∨ i.mode = .acc) ∧
    (t.cpu.x ≠ s.cpu.x → i.mnemonic ∈ [.ldx, .tax, .tsx, .inx, .dex]) ∧
    (t.cpu.y ≠ s.cpu.y → i.mnemonic ∈ [.ldy, .tay, .iny, .dey]) ∧
    (t.cpu.sp ≠ s.cpu.sp → i.mnemonic ∈ [.txs, .pha, .php, .pla, .plp, .jsr, .rts, .rti, .brk]) ∧
    (i.mnemonic ∉ transfers → t.cpu.pc = s.cpu.pc + BitVec.ofNat 16 (encode i).length) ∧
    (i.mnemonic ∉ writers → t.bus = s.bus ∧ t.vic = s.vic ∧ ∀ a : Addr, ramByte a t.bus.ram = ramByte a s.bus.ram)

/-! ### The timer chips -/

/-- R400, R402: the whole chip after a tick, for stopped timers, timers that count CNT, and a timer B that counts timer A's underflows as
well as for those that count phi2. R401: a running continuous timer with latch L, from a counter of L: after n ticks it stands at
L - n mod (L + 1), and its flag is set from tick L + 1 on; it underflows on exactly the ticks that are multiples of L + 1. Timer A counting
phi2, and timer B likewise. R407: a one-shot timer that underflows reloads, sets its flag, clears START, and then holds the
latch value for every later tick. -/
def Obligations.TimerPeriodAndOneShot : Prop :=
  (∀ c : Cia,
    let countsA := c.cra.getLsbD 0 = true ∧ c.cra.getLsbD 5 = false
    let underA := countsA ∧ c.ta = 0#16
    let inMode := c.crb.toNat / 32 % 4
    let countsB := c.crb.getLsbD 0 = true ∧ (inMode = 0 ∨ (2 ≤ inMode ∧ underA))
    let underB := countsB ∧ c.tb = 0#16
    c.tick =
      { c with
        ta := if underA then c.taLatch else if countsA then BitVec.ofNat 16 (c.ta.toNat - 1) else c.ta
        cra := if underA ∧ c.cra.getLsbD 3 = true then c.cra &&& 0xFE#8 else c.cra
        tb := if underB then c.tbLatch else if countsB then BitVec.ofNat 16 (c.tb.toNat - 1) else c.tb
        crb := if underB ∧ c.crb.getLsbD 3 = true then c.crb &&& 0xFE#8 else c.crb
        icrFlags := c.icrFlags ||| (if underA then 1#5 else 0#5) ||| (if underB then 2#5 else 0#5) }) ∧
  ∀ (c : Cia) (n : Nat),
    (c.cra.getLsbD 0 = true → c.cra.getLsbD 3 = false → c.cra.getLsbD 5 = false → c.ta = c.taLatch → c.icrFlags.getLsbD 0 = false →
      (Cia.tick^[n] c).ta.toNat = c.taLatch.toNat - n % (c.taLatch.toNat + 1) ∧
      ((Cia.tick^[n] c).icrFlags.getLsbD 0 = true ↔ c.taLatch.toNat + 1 ≤ n) ∧
      ((Cia.tick^[n] c).underflowsA = true ↔ (n + 1) % (c.taLatch.toNat + 1) = 0)) ∧
    (c.crb.getLsbD 0 = true → c.crb.getLsbD 3 = false → c.crb.getLsbD 5 = false → c.crb.getLsbD 6 = false → c.tb = c.tbLatch →
      c.icrFlags.getLsbD 1 = false →
      (Cia.tick^[n] c).tb.toNat = c.tbLatch.toNat - n % (c.tbLatch.toNat + 1) ∧
      ((Cia.tick^[n] c).icrFlags.getLsbD 1 = true ↔ c.tbLatch.toNat + 1 ≤ n)) ∧
    (c.cra.getLsbD 0 = true → c.cra.getLsbD 3 = true → c.cra.getLsbD 5 = false → c.ta = 0#16 →
      (Cia.tick^[n + 1] c).ta = c.taLatch ∧ (Cia.tick^[n + 1] c).cra = c.cra &&& 0xFE#8 ∧
        (Cia.tick^[n + 1] c).icrFlags.getLsbD 0 = true) ∧
    (c.crb.getLsbD 0 = true → c.crb.getLsbD 3 = true → c.crb.getLsbD 5 = false → c.crb.getLsbD 6 = false → c.tb = 0#16 →
      (Cia.tick^[n + 1] c).tb = c.tbLatch ∧ (Cia.tick^[n + 1] c).crb = c.crb &&& 0xFE#8 ∧
        (Cia.tick^[n + 1] c).icrFlags.getLsbD 1 = true)

/-- R393, R404 to R406: the whole chip after a write to each of the 16 registers; at index 0xD only the mask changes (how: R411, in
InterruptControlRegister), and 0x8 to 0xC ignore writes. -/
def Obligations.TimerLatchWrites : Prop :=
  ∀ (c : Cia) (v : Byte),
    c.regWrite 0x0#4 v = { c with pra := v } ∧ c.regWrite 0x1#4 v = { c with prb := v } ∧
    c.regWrite 0x2#4 v = { c with ddra := v } ∧ c.regWrite 0x3#4 v = { c with ddrb := v } ∧
    c.regWrite 0x4#4 v = { c with taLatch := join (high c.taLatch) v } ∧
    c.regWrite 0x5#4 v =
      { c with
        taLatch := join v (low c.taLatch)
        ta := if c.cra.getLsbD 0 = true then c.ta else join v (low c.taLatch) } ∧
    c.regWrite 0x6#4 v = { c with tbLatch := join (high c.tbLatch) v } ∧
    c.regWrite 0x7#4 v =
      { c with
        tbLatch := join v (low c.tbLatch)
        tb := if c.crb.getLsbD 0 = true then c.tb else join v (low c.tbLatch) } ∧
    (∀ i : BitVec 4, 0x8 ≤ i.toNat → i.toNat ≤ 0xC → c.regWrite i v = c) ∧
    c.regWrite 0xD#4 v = { c with icrMask := (c.regWrite 0xD#4 v).icrMask } ∧
    c.regWrite 0xE#4 v =
      { c with
        cra := BitVec.ofNat 8 (v.toNat - 16 * (v.toNat / 16 % 2))
        ta := if v.toNat / 16 % 2 = 1 then c.taLatch else c.ta } ∧
    c.regWrite 0xF#4 v =
      { c with
        crb := BitVec.ofNat 8 (v.toNat - 16 * (v.toNat / 16 % 2))
        tb := if v.toNat / 16 % 2 = 1 then c.tbLatch else c.tb }

/-- R411: a write to ICR sets or clears exactly the mask bits whose bit in v is 1, by v[7], and changes nothing else. R409: a read returns
the output in bit 7 and the flags in bits 4 to 0, and clears the flags and nothing else, so the output drops. R410: the output is active
exactly when a set flag has its mask bit set. -/
def Obligations.InterruptControlRegister : Prop :=
  (∀ c : Cia, c.irq = true ↔ ∃ k : Nat, k < 5 ∧ c.icrFlags.getLsbD k = true ∧ c.icrMask.getLsbD k = true) ∧
  (∀ (c : Cia) (v : Byte),
    (∀ k : Nat, k < 5 →
      (c.regWrite 0xD#4 v).icrMask.getLsbD k = if v.getLsbD k then v.getLsbD 7 else c.icrMask.getLsbD k) ∧
    c.regWrite 0xD#4 v = { c with icrMask := (c.regWrite 0xD#4 v).icrMask }) ∧
  (∀ (c : Cia) (inp : CiaInput),
    c.regRead inp 0xD#4 = some (BitVec.ofNat 8 (128 * c.irq.toNat + c.icrFlags.toNat)) ∧
    c.afterRead 0xD#4 = { c with icrFlags := 0#5 } ∧ (c.afterRead 0xD#4).irq = false ∧
    ∀ i : BitVec 4, i ≠ 0xD#4 → c.afterRead i = c)

/-- R421, R422: the port pins. On CIA1 a bit reads 1 when it is not driven low, no held key connects it to a line driven low, and the
joystick does not pull it; on CIA2 nothing is connected. R392: what a read of every other register than ICR returns, `none` being a
draw. -/
def Obligations.PortPins : Prop :=
  (∀ (c : Cia) (inp : CiaInput),
    c.regRead inp 0x0#4 = some (c.portA inp) ∧ c.regRead inp 0x1#4 = some (c.portB inp) ∧
    c.regRead inp 0x2#4 = some c.ddra ∧ c.regRead inp 0x3#4 = some c.ddrb ∧
    c.regRead inp 0x4#4 = some (low c.ta) ∧ c.regRead inp 0x5#4 = some (high c.ta) ∧
    c.regRead inp 0x6#4 = some (low c.tb) ∧ c.regRead inp 0x7#4 = some (high c.tb) ∧
    (∀ i : BitVec 4, 0x8 ≤ i.toNat → i.toNat ≤ 0xC → c.regRead inp i = none) ∧
    c.regRead inp 0xE#4 = some c.cra ∧ c.regRead inp 0xF#4 = some c.crb) ∧
  (∀ (c : Cia) (inp : CiaInput), c.id = .cia1 →
    (∀ k : Fin 8, (c.portA inp).getLsbD k = true ↔
      (c.pra ||| ~~~c.ddra).getLsbD k = true ∧
        ¬(∃ r : Fin 8, inp.keys[k][r] = true ∧ (c.prb ||| ~~~c.ddrb).getLsbD r = false) ∧
        ¬(k.val ≤ 4 ∧ inp.joy2.getLsbD k = true)) ∧
    (∀ r : Fin 8, (c.portB inp).getLsbD r = true ↔
      (c.prb ||| ~~~c.ddrb).getLsbD r = true ∧
        ¬(∃ k : Fin 8, inp.keys[k][r] = true ∧ (c.pra ||| ~~~c.ddra).getLsbD k = false) ∧
        ¬(r.val ≤ 4 ∧ inp.joy1.getLsbD r = true))) ∧
  (∀ (c : Cia) (inp : CiaInput), c.id = .cia2 →
    c.portA inp = c.pra ||| ~~~c.ddra ∧ c.portB inp = c.prb ||| ~~~c.ddrb)

/-! ### The video chip -/

/-- R451: the raster position and the frame count after N ticks from reset, under any positive geometry (R440), the default one among
them. -/
def Obligations.RasterPosition : Prop :=
  (∀ (g : Geometry) (n : Nat), g.valid = true →
    ((Vic.tick g)^[n] Vic.reset).rasterCycle = n % g.cyclesPerLine ∧
      ((Vic.tick g)^[n] Vic.reset).rasterLine = n / g.cyclesPerLine % g.linesPerFrame ∧
      ((Vic.tick g)^[n] Vic.reset).frame = n / (g.cyclesPerLine * g.linesPerFrame)) ∧
  ∀ n : Nat,
    ((Vic.tick defaultGeometry)^[n] Vic.reset).rasterCycle = n % 63 ∧
      ((Vic.tick defaultGeometry)^[n] Vic.reset).rasterLine = n / 63 % 312 ∧
      ((Vic.tick defaultGeometry)^[n] Vic.reset).frame = n / 19656

/-- R450: the whole chip after a tick, within a line and at the start of one: the next line, the frame count, the display-enable latch,
the raster source. R455: when a line is a badline. The row fetch of a badline changes no state (R456; log 11). -/
def Obligations.VideoTickAndBadlines : Prop :=
  ∀ (g : Geometry) (v : Vic),
    (v.rasterCycle + 1 ≠ g.cyclesPerLine → v.tick g = { v with rasterCycle := v.rasterCycle + 1 }) ∧
    (v.rasterCycle + 1 = g.cyclesPerLine →
      let wraps := v.rasterLine + 1 = g.linesPerFrame
      let line := if wraps then 0 else v.rasterLine + 1
      v.tick g =
        { v with
          rasterCycle := 0
          rasterLine := line
          frame := if wraps then v.frame + 1 else v.frame
          badlineEnable := decide ((line = 0x30 ∧ (v.reg 0x11).toNat / 16 % 2 = 1) ∨ (¬wraps ∧ v.badlineEnable = true))
          irqFlags := if line = v.rasterCompare.toNat then v.irqFlags ||| 1#4 else v.irqFlags }) ∧
    ∀ l : Nat, v.badline l = true ↔ 0x30 ≤ l ∧ l ≤ 0xF7 ∧ l % 8 = (v.reg 0x11).toNat % 8 ∧ v.badlineEnable = true

/-- R443, R446: from reset with the compare line at L, the raster source is latched by tick N, N at least 1, exactly when N is
CYCLES_PER_LINE * L mod the frame, so never for an L that is no line. Until the first such tick the flag is clear. With the default
geometry these are the ticks 63 * L mod 19656, and an L of 312 or more is never reached. -/
def Obligations.RasterInterruptTiming : Prop :=
  (∀ (g : Geometry) (l : BitVec 9) (n : Nat), g.valid = true →
    let v := (Vic.tick g)^[n] { Vic.reset with rasterCompare := l }
    let frame := g.cyclesPerLine * g.linesPerFrame
    ((({ v with irqFlags := 0#4 } : Vic).tick g).irqFlags = 1#4 ↔ (n + 1) % frame = g.cyclesPerLine * l.toNat) ∧
    (v.irqFlags = 1#4 ↔ ∃ k : Nat, 1 ≤ k ∧ k ≤ n ∧ k % frame = g.cyclesPerLine * l.toNat) ∧
    (v.irqFlags = 0#4 ↔ ¬∃ k : Nat, 1 ≤ k ∧ k ≤ n ∧ k % frame = g.cyclesPerLine * l.toNat) ∧ v.rasterCompare = l) ∧
  ∀ (l : BitVec 9) (n : Nat),
    let v := (Vic.tick defaultGeometry)^[n] { Vic.reset with rasterCompare := l }
    (v.irqFlags = 1#4 ↔ ∃ k : Nat, 1 ≤ k ∧ k ≤ n ∧ k % 19656 = 63 * l.toNat) ∧ (312 ≤ l.toNat → v.irqFlags = 0#4)

/-- R447: a write to 0x19 clears the latched sources whose bit is 1 in the value and leaves the others; no other write and no tick clears
one; INC, ASL and LSR of a visible 0xD019 do not acknowledge the raster source. -/
def Obligations.RasterAcknowledge : Prop :=
  (∀ (v : Vic) (b : Byte) (k : Nat), k < 4 →
    (v.regWrite 0x19#6 b).irqFlags.getLsbD k = (v.irqFlags.getLsbD k && !b.getLsbD k)) ∧
  (∀ (v : Vic) (b : Byte), v.regWrite 0x19#6 b = { v with irqFlags := (v.regWrite 0x19#6 b).irqFlags }) ∧
  (∀ (v : Vic) (i : BitVec 6) (b : Byte), i ≠ 0x19#6 → (v.regWrite i b).irqFlags = v.irqFlags) ∧
  (∀ (g : Geometry) (v : Vic) (k : Nat), v.irqFlags.getLsbD k = true → (v.tick g).irqFlags.getLsbD k = true) ∧
  (∀ (i : Instr) (s t : State), i ∈ [Instr.incAbs 0xD019#16, .aslAbs 0xD019#16, .lsrAbs 0xD019#16] →
    resolve 0xD019#16 s.bus.bank = .io → s.vic.irqFlags = 1#4 → exec i s = .next t → t.vic.irqFlags = 1#4)

/-- R441, R442: a register read back after a write, with the unused bits as 1; what the other indices give; and that a write to one index
changes no other stored register, and of the other fields only the compare line (0x11, 0x12), the latched sources (0x19) or the enables
(0x1A). R448: the output is active exactly when a latched source is enabled. -/
def Obligations.VideoRegisters : Prop :=
  ∀ (v : Vic) (i : BitVec 6) (b : Byte),
    (i.toNat ≤ 0x10 ∨ i.toNat ∈ [0x15, 0x17, 0x1B, 0x1C, 0x1D] → (v.regWrite i b).regRead i = some b) ∧
    (i.toNat = 0x11 → (v.regWrite i b).regRead i =
      some (BitVec.ofNat 8 (128 * (v.rasterLine / 256 % 2) + b.toNat % 128)) ∧
      (v.regWrite i b).rasterCompare.toNat = 256 * (b.toNat / 128) + v.rasterCompare.toNat % 256) ∧
    (i.toNat = 0x12 → (v.regWrite i b).regRead i = some (BitVec.ofNat 8 v.rasterLine) ∧
      (v.regWrite i b).rasterCompare.toNat = 256 * (v.rasterCompare.toNat / 256) + b.toNat) ∧
    (i.toNat ∈ [0x13, 0x14, 0x1E, 0x1F] → v.regRead i = none ∧ v.regWrite i b = v) ∧
    (i.toNat = 0x16 → (v.regWrite i b).regRead i = some (b ||| 0xC0#8)) ∧
    (i.toNat = 0x18 → (v.regWrite i b).regRead i = some (b ||| 0x01#8)) ∧
    (i.toNat = 0x19 → v.regRead i = some (BitVec.ofNat 8 (128 * v.irq.toNat + 112 + v.irqFlags.toNat))) ∧
    (i.toNat = 0x1A → (v.regWrite i b).regRead i = some (b ||| 0xF0#8)) ∧
    (0x20 ≤ i.toNat → i.toNat ≤ 0x2E → (v.regWrite i b).regRead i = some (b ||| 0xF0#8)) ∧
    (0x2F ≤ i.toNat → v.regRead i = some 0xFF#8 ∧ v.regWrite i b = v) ∧
    (∀ j : Nat, j ≠ i.toNat → (v.regWrite i b).reg j = v.reg j) ∧
    (v.regWrite i b).rasterLine = v.rasterLine ∧ (v.regWrite i b).rasterCycle = v.rasterCycle ∧
    (v.regWrite i b).frame = v.frame ∧ (v.regWrite i b).badlineEnable = v.badlineEnable ∧
    (i.toNat ≠ 0x11 → i.toNat ≠ 0x12 → (v.regWrite i b).rasterCompare = v.rasterCompare) ∧
    (i.toNat ≠ 0x19 → (v.regWrite i b).irqFlags = v.irqFlags) ∧
    (i.toNat = 0x1A → (v.regWrite i b).irqEnable.toNat = b.toNat % 16) ∧
    (i.toNat ≠ 0x1A → (v.regWrite i b).irqEnable = v.irqEnable) ∧
    (v.irq = true ↔ ∃ k : Nat, k < 4 ∧ v.irqFlags.getLsbD k = true ∧ v.irqEnable.getLsbD k = true)

/-! ### The disk image -/

/-- R492, R493: the zone table, the offset of every track, 683 sectors and 174848 bytes. -/
def Obligations.DiskGeometry : Prop :=
  diskTable.map (·.1) = List.range' 1 35 ∧
  (∀ r ∈ diskTable, spt r.1 = r.2.1 ∧ sectorsBefore r.1 = r.2.2.1 ∧ diskOffset r.1 0 = r.2.2.2) ∧
  (∀ t s : Nat, diskOffset t s = diskOffset t 0 + 256 * s) ∧
  diskOffset 35 16 = 0x2AA00 ∧ ((List.range' 1 35).map spt).sum = 683 ∧ diskLength = 174848

/-- R495: the byte law, for every stream that is long enough. -/
def Obligations.ParsedBytesAreTheStreamBytes : Prop :=
  ∀ stream : List Byte, 174848 ≤ stream.length →
    ∃ img, parseDisk stream = .ok img ∧ img.wf = true ∧
      ∀ t s j : Nat, 1 ≤ t → t ≤ 35 → s < spt t → (hj : j < 256) →
        ∃ tr sec, getTrack img t = .ok tr ∧ getSector tr s = .ok sec ∧ some sec[j] = stream[diskOffset t s + j]?

/-- R494: a stream that is too short fails at the first sector whose 256 bytes are not all there; a longer one gives the image of its
first 174848 bytes. -/
def Obligations.ShortStreamsFailAtTheFirstMissingSector : Prop :=
  (∀ stream : List Byte, stream.length < 174848 →
    ∃ t s : Nat, 1 ≤ t ∧ t ≤ 35 ∧ s < spt t ∧ diskOffset t s ≤ stream.length ∧ stream.length < diskOffset t s + 256 ∧
      parseDisk stream = .error (.diskTruncated t s)) ∧
  (∀ stream : List Byte, 174848 ≤ stream.length →
    ∃ img, parseDisk stream = .ok img ∧ parseDisk (stream.take 174848) = .ok img)

/-- R496, R497: building a sector from a buffer, and the lookups with their bounds. -/
def Obligations.SectorsAndLookups : Prop :=
  (∀ b : List Byte, 256 < b.length → makeSector b = .error (.sectorTooLarge b.length)) ∧
  (∀ b : List Byte, b.length ≤ 256 →
    ∃ sec, makeSector b = .ok sec ∧ ∀ j : Nat, (hj : j < 256) → sec[j] = b[j]?.getD 0x00#8) ∧
  (∀ (img : DiskImage) (t : Int), img.wf = true → 1 ≤ t → t ≤ 35 →
    ∃ tr, getTrack img t = .ok tr ∧ img.tracks[(t - 1).toNat]? = some tr ∧ tr.length = spt t.toNat ∧
      ∀ s : Int, (0 ≤ s → s < spt t.toNat → ∃ sec, getSector tr s = .ok sec ∧ tr[s.toNat]? = some sec) ∧
        (s < 0 ∨ (spt t.toNat : Int) ≤ s → ∃ what, getSector tr s = .error (.preconditionViolation what))) ∧
  (∀ (img : DiskImage) (t : Int), t < 1 ∨ 35 < t → ∃ what, getTrack img t = .error (.preconditionViolation what))

/-! ### The host -/

/-- R381: a key or joystick event changes that one input and nothing else; an index out of range fails. R81: a host-side access outside
0..0xFFFF fails; inside, it is the bus's read or write, with no cycle and no NMI sample: the model's reading (log 14). The events and
the accesses apply in every run status; after the end of a run that is the model's choice (logs 19 and 20). -/
def Obligations.HostInputAndAddressChecks : Prop :=
  (∀ (s : State) (c r : Nat) (down : Bool), (hc : c < 8) → (hr : r < 8) →
    ∃ t, hostEvent (if down then .keyDown c r else .keyUp c r) s = .ok t ∧ t.input.keys[c][r] = down ∧
      (∀ c' r' : Nat, (hc' : c' < 8) → (hr' : r' < 8) → ¬(c' = c ∧ r' = r) → t.input.keys[c'][r'] = s.input.keys[c'][r']) ∧
      t = { s with input := { s.input with keys := t.input.keys } }) ∧
  (∀ (s : State) (c r : Nat), 8 ≤ c ∨ 8 ≤ r →
    (∃ what, hostEvent (.keyDown c r) s = .error (.preconditionViolation what)) ∧
      ∃ what, hostEvent (.keyUp c r) s = .error (.preconditionViolation what)) ∧
  (∀ (s : State) (b : Byte),
    hostEvent (.setJoy 1 b) s = .ok { s with input := { s.input with joy1 := BitVec.ofNat 5 b.toNat } } ∧
    hostEvent (.setJoy 2 b) s = .ok { s with input := { s.input with joy2 := BitVec.ofNat 5 b.toNat } } ∧
    ∀ n : Nat, n ≠ 1 → n ≠ 2 → ∃ what, hostEvent (.setJoy n b) s = .error (.preconditionViolation what)) ∧
  (∀ (n : Int) (v : Byte) (s : State),
    (n < 0 ∨ 0xFFFF < n →
      (∃ what, hostRead n s = .error (.preconditionViolation what)) ∧
        ∃ what, hostWrite n v s = .error (.preconditionViolation what)) ∧
    (∀ a : Addr, n = a.toNat → hostRead n s = .ok (busByte a s, afterRead a s) ∧ hostWrite n v s = .ok (memWrite a v s)))
end

