-- ==== Sys2Proof/Laws/Memory.lean ====
section
/-! SUPPORT. The laws of sparse storage: a read after a write, other addresses untouched, the canonical form kept, and equal contents
are equal data. -/

namespace Sys2Proof.Machine

theorem find_put_same (k : Nat) (v : Byte) (m : Memory) : Memory.find k (Memory.put k v m) = some v := by
  induction m with
  | nil => simp [Memory.put, Memory.find]
  | cons c m ih =>
    obtain ⟨a, w⟩ := c
    simp only [Memory.put]
    split
    · simp [Memory.find]
    · split
      · simp [Memory.find]
      · rename_i h
        simp [Memory.find, Ne.symm h, ih]

theorem find_put_other {k j : Nat} (h : j ≠ k) (v : Byte) (m : Memory) :
    Memory.find j (Memory.put k v m) = Memory.find j m := by
  induction m with
  | nil => simp [Memory.put, Memory.find, Ne.symm h]
  | cons c m ih =>
    obtain ⟨a, w⟩ := c
    simp only [Memory.put]
    split
    · simp [Memory.find, Ne.symm h]
    · split
      · rename_i h2
        subst h2
        simp [Memory.find, Ne.symm h]
      · simp [Memory.find, ih]

theorem rising_mono {lo lo' bound : Nat} (h : lo' ≤ lo) {m : Memory} (hm : Memory.rising lo bound m = true) :
    Memory.rising lo' bound m = true := by
  cases m with
  | nil => rfl
  | cons c m =>
    obtain ⟨a, w⟩ := c
    simp only [Memory.rising, Bool.and_eq_true, decide_eq_true_eq] at hm ⊢
    exact ⟨⟨by omega, hm.1.2⟩, hm.2⟩

theorem rising_put {lo bound k : Nat} (v : Byte) (hlo : lo ≤ k) (hk : k < bound) {m : Memory}
    (hm : Memory.rising lo bound m = true) : Memory.rising lo bound (Memory.put k v m) = true := by
  induction m generalizing lo with
  | nil => simp [Memory.put, Memory.rising, hlo, hk]
  | cons c m ih =>
    obtain ⟨a, w⟩ := c
    simp only [Memory.rising, Bool.and_eq_true, decide_eq_true_eq] at hm
    obtain ⟨⟨h1, h2⟩, h3⟩ := hm
    simp only [Memory.put]
    split
    · simp only [Memory.rising, Bool.and_eq_true, decide_eq_true_eq]
      exact ⟨⟨hlo, hk⟩, ⟨by omega, h2⟩, h3⟩
    · split
      · rename_i h4
        subst h4
        simp only [Memory.rising, Bool.and_eq_true, decide_eq_true_eq]
        exact ⟨⟨hlo, hk⟩, h3⟩
      · simp only [Memory.rising, Bool.and_eq_true, decide_eq_true_eq]
        exact ⟨⟨h1, h2⟩, ih (by omega) h3⟩

/-- Every write keeps the canonical form. -/
theorem wf_put {bound k : Nat} (v : Byte) (hk : k < bound) {m : Memory} (hm : Memory.wf bound m = true) :
    Memory.wf bound (Memory.put k v m) = true :=
  rising_put v (Nat.zero_le k) hk hm

theorem find_below_rising {lo bound k : Nat} {m : Memory} (hm : Memory.rising lo bound m = true) (hk : k < lo) :
    Memory.find k m = none := by
  induction m generalizing lo with
  | nil => rfl
  | cons c m ih =>
    obtain ⟨a, w⟩ := c
    simp only [Memory.rising, Bool.and_eq_true, decide_eq_true_eq] at hm
    simp only [Memory.find]
    rw [if_neg (by omega), ih hm.2 (by omega)]

theorem rising_ext {lo bound : Nat} {m m' : Memory} (hm : Memory.rising lo bound m = true)
    (hm' : Memory.rising lo bound m' = true) (h : ∀ k, Memory.find k m = Memory.find k m') : m = m' := by
  induction m generalizing lo m' with
  | nil =>
    cases m' with
    | nil => rfl
    | cons c t => have := h c.1; simp [Memory.find] at this
  | cons c t ih =>
    obtain ⟨a, w⟩ := c
    cases m' with
    | nil => have := h a; simp [Memory.find] at this
    | cons c' t' =>
      obtain ⟨a', w'⟩ := c'
      simp only [Memory.rising, Bool.and_eq_true, decide_eq_true_eq] at hm hm'
      have hab : a = a' := by
        rcases Nat.lt_trichotomy a a' with hlt | heq | hgt
        · have := h a
          simp only [Memory.find, if_pos] at this
          rw [if_neg (by omega), find_below_rising hm'.2 (by omega)] at this
          simp at this
        · exact heq
        · have := h a'
          simp only [Memory.find, if_pos] at this
          rw [if_neg (by omega), find_below_rising hm.2 (by omega)] at this
          simp at this
      subst hab
      have hw : w = w' := by have := h a; simpa [Memory.find] using this
      subst hw
      rw [ih hm.2 hm'.2 fun k => ?_]
      by_cases hk : a = k
      · rw [find_below_rising hm.2 (by omega), find_below_rising hm'.2 (by omega)]
      · have := h k
        simpa only [Memory.find, if_neg hk] using this

/-- Two canonical memories that hold the same bytes at the same addresses are equal data. -/
theorem wf_ext {bound : Nat} {m m' : Memory} (hm : Memory.wf bound m = true) (hm' : Memory.wf bound m' = true)
    (h : ∀ k, Memory.find k m = Memory.find k m') : m = m' :=
  rising_ext hm hm' h

theorem ramByte_put_same (a : Addr) (v : Byte) (m : Memory) : ramByte a (Memory.put a.toNat v m) = v := by
  simp [ramByte, find_put_same]

theorem ramByte_put_other {a b : Addr} (h : b ≠ a) (v : Byte) (m : Memory) :
    ramByte b (Memory.put a.toNat v m) = ramByte b m := by
  have : b.toNat ≠ a.toNat := fun e => h (BitVec.eq_of_toNat_eq e)
  simp [ramByte, find_put_other this]

theorem colorCell_put_same (i : BitVec 10) (v : Byte) (m : Memory) : colorCell i (Memory.put i.toNat v m) = v := by
  simp [colorCell, find_put_same]

theorem colorCell_put_other {i j : BitVec 10} (h : j ≠ i) (v : Byte) (m : Memory) :
    colorCell j (Memory.put i.toNat v m) = colorCell j m := by
  have : j.toNat ≠ i.toNat := fun e => h (BitVec.eq_of_toNat_eq e)
  simp [colorCell, find_put_other this]

end Sys2Proof.Machine
end

