-- ==== Sys2Proof/Laws/State.lean ====
section
/-! SUPPORT. One lemma for each field group under each named update of State, all true by rfl: no later proof unfolds an update. -/

namespace Sys2Proof.Machine

@[simp] theorem State.setA_config (s : State) (v : Byte) : (s.setA v).config = s.config := rfl
@[simp] theorem State.setA_cpu (s : State) (v : Byte) : (s.setA v).cpu = { s.cpu with a := v } := rfl
@[simp] theorem State.setA_engine (s : State) (v : Byte) : (s.setA v).engine = s.engine := rfl
@[simp] theorem State.setA_bus (s : State) (v : Byte) : (s.setA v).bus = s.bus := rfl
@[simp] theorem State.setA_cia1 (s : State) (v : Byte) : (s.setA v).cia1 = s.cia1 := rfl
@[simp] theorem State.setA_cia2 (s : State) (v : Byte) : (s.setA v).cia2 = s.cia2 := rfl
@[simp] theorem State.setA_input (s : State) (v : Byte) : (s.setA v).input = s.input := rfl
@[simp] theorem State.setA_vic (s : State) (v : Byte) : (s.setA v).vic = s.vic := rfl
@[simp] theorem State.setA_aux (s : State) (v : Byte) : (s.setA v).aux = s.aux := rfl

@[simp] theorem State.setX_config (s : State) (v : Byte) : (s.setX v).config = s.config := rfl
@[simp] theorem State.setX_cpu (s : State) (v : Byte) : (s.setX v).cpu = { s.cpu with x := v } := rfl
@[simp] theorem State.setX_engine (s : State) (v : Byte) : (s.setX v).engine = s.engine := rfl
@[simp] theorem State.setX_bus (s : State) (v : Byte) : (s.setX v).bus = s.bus := rfl
@[simp] theorem State.setX_cia1 (s : State) (v : Byte) : (s.setX v).cia1 = s.cia1 := rfl
@[simp] theorem State.setX_cia2 (s : State) (v : Byte) : (s.setX v).cia2 = s.cia2 := rfl
@[simp] theorem State.setX_input (s : State) (v : Byte) : (s.setX v).input = s.input := rfl
@[simp] theorem State.setX_vic (s : State) (v : Byte) : (s.setX v).vic = s.vic := rfl
@[simp] theorem State.setX_aux (s : State) (v : Byte) : (s.setX v).aux = s.aux := rfl

@[simp] theorem State.setY_config (s : State) (v : Byte) : (s.setY v).config = s.config := rfl
@[simp] theorem State.setY_cpu (s : State) (v : Byte) : (s.setY v).cpu = { s.cpu with y := v } := rfl
@[simp] theorem State.setY_engine (s : State) (v : Byte) : (s.setY v).engine = s.engine := rfl
@[simp] theorem State.setY_bus (s : State) (v : Byte) : (s.setY v).bus = s.bus := rfl
@[simp] theorem State.setY_cia1 (s : State) (v : Byte) : (s.setY v).cia1 = s.cia1 := rfl
@[simp] theorem State.setY_cia2 (s : State) (v : Byte) : (s.setY v).cia2 = s.cia2 := rfl
@[simp] theorem State.setY_input (s : State) (v : Byte) : (s.setY v).input = s.input := rfl
@[simp] theorem State.setY_vic (s : State) (v : Byte) : (s.setY v).vic = s.vic := rfl
@[simp] theorem State.setY_aux (s : State) (v : Byte) : (s.setY v).aux = s.aux := rfl

@[simp] theorem State.setSp_config (s : State) (v : Byte) : (s.setSp v).config = s.config := rfl
@[simp] theorem State.setSp_cpu (s : State) (v : Byte) : (s.setSp v).cpu = { s.cpu with sp := v } := rfl
@[simp] theorem State.setSp_engine (s : State) (v : Byte) : (s.setSp v).engine = s.engine := rfl
@[simp] theorem State.setSp_bus (s : State) (v : Byte) : (s.setSp v).bus = s.bus := rfl
@[simp] theorem State.setSp_cia1 (s : State) (v : Byte) : (s.setSp v).cia1 = s.cia1 := rfl
@[simp] theorem State.setSp_cia2 (s : State) (v : Byte) : (s.setSp v).cia2 = s.cia2 := rfl
@[simp] theorem State.setSp_input (s : State) (v : Byte) : (s.setSp v).input = s.input := rfl
@[simp] theorem State.setSp_vic (s : State) (v : Byte) : (s.setSp v).vic = s.vic := rfl
@[simp] theorem State.setSp_aux (s : State) (v : Byte) : (s.setSp v).aux = s.aux := rfl

@[simp] theorem State.setPc_config (s : State) (v : Addr) : (s.setPc v).config = s.config := rfl
@[simp] theorem State.setPc_cpu (s : State) (v : Addr) : (s.setPc v).cpu = { s.cpu with pc := v } := rfl
@[simp] theorem State.setPc_engine (s : State) (v : Addr) : (s.setPc v).engine = s.engine := rfl
@[simp] theorem State.setPc_bus (s : State) (v : Addr) : (s.setPc v).bus = s.bus := rfl
@[simp] theorem State.setPc_cia1 (s : State) (v : Addr) : (s.setPc v).cia1 = s.cia1 := rfl
@[simp] theorem State.setPc_cia2 (s : State) (v : Addr) : (s.setPc v).cia2 = s.cia2 := rfl
@[simp] theorem State.setPc_input (s : State) (v : Addr) : (s.setPc v).input = s.input := rfl
@[simp] theorem State.setPc_vic (s : State) (v : Addr) : (s.setPc v).vic = s.vic := rfl
@[simp] theorem State.setPc_aux (s : State) (v : Addr) : (s.setPc v).aux = s.aux := rfl

@[simp] theorem State.setP_config (s : State) (p : Flags) : (s.setP p).config = s.config := rfl
@[simp] theorem State.setP_cpu (s : State) (p : Flags) : (s.setP p).cpu = { s.cpu with p := p } := rfl
@[simp] theorem State.setP_engine (s : State) (p : Flags) : (s.setP p).engine = s.engine := rfl
@[simp] theorem State.setP_bus (s : State) (p : Flags) : (s.setP p).bus = s.bus := rfl
@[simp] theorem State.setP_cia1 (s : State) (p : Flags) : (s.setP p).cia1 = s.cia1 := rfl
@[simp] theorem State.setP_cia2 (s : State) (p : Flags) : (s.setP p).cia2 = s.cia2 := rfl
@[simp] theorem State.setP_input (s : State) (p : Flags) : (s.setP p).input = s.input := rfl
@[simp] theorem State.setP_vic (s : State) (p : Flags) : (s.setP p).vic = s.vic := rfl
@[simp] theorem State.setP_aux (s : State) (p : Flags) : (s.setP p).aux = s.aux := rfl

@[simp] theorem State.setStatus_config (s : State) (r : RunStatus) : (s.setStatus r).config = s.config := rfl
@[simp] theorem State.setStatus_cpu (s : State) (r : RunStatus) : (s.setStatus r).cpu = s.cpu := rfl
@[simp] theorem State.setStatus_engine (s : State) (r : RunStatus) : (s.setStatus r).engine = { s.engine with status := r } := rfl
@[simp] theorem State.setStatus_bus (s : State) (r : RunStatus) : (s.setStatus r).bus = s.bus := rfl
@[simp] theorem State.setStatus_cia1 (s : State) (r : RunStatus) : (s.setStatus r).cia1 = s.cia1 := rfl
@[simp] theorem State.setStatus_cia2 (s : State) (r : RunStatus) : (s.setStatus r).cia2 = s.cia2 := rfl
@[simp] theorem State.setStatus_input (s : State) (r : RunStatus) : (s.setStatus r).input = s.input := rfl
@[simp] theorem State.setStatus_vic (s : State) (r : RunStatus) : (s.setStatus r).vic = s.vic := rfl
@[simp] theorem State.setStatus_aux (s : State) (r : RunStatus) : (s.setStatus r).aux = s.aux := rfl

@[simp] theorem State.setCycles_config (s : State) (n : Nat) : (s.setCycles n).config = s.config := rfl
@[simp] theorem State.setCycles_cpu (s : State) (n : Nat) : (s.setCycles n).cpu = s.cpu := rfl
@[simp] theorem State.setCycles_engine (s : State) (n : Nat) : (s.setCycles n).engine = { s.engine with cycles := n } := rfl
@[simp] theorem State.setCycles_bus (s : State) (n : Nat) : (s.setCycles n).bus = s.bus := rfl
@[simp] theorem State.setCycles_cia1 (s : State) (n : Nat) : (s.setCycles n).cia1 = s.cia1 := rfl
@[simp] theorem State.setCycles_cia2 (s : State) (n : Nat) : (s.setCycles n).cia2 = s.cia2 := rfl
@[simp] theorem State.setCycles_input (s : State) (n : Nat) : (s.setCycles n).input = s.input := rfl
@[simp] theorem State.setCycles_vic (s : State) (n : Nat) : (s.setCycles n).vic = s.vic := rfl
@[simp] theorem State.setCycles_aux (s : State) (n : Nat) : (s.setCycles n).aux = s.aux := rfl

@[simp] theorem State.setNmiPrev_config (s : State) (b : Bool) : (s.setNmiPrev b).config = s.config := rfl
@[simp] theorem State.setNmiPrev_cpu (s : State) (b : Bool) : (s.setNmiPrev b).cpu = s.cpu := rfl
@[simp] theorem State.setNmiPrev_engine (s : State) (b : Bool) : (s.setNmiPrev b).engine = { s.engine with nmiPrev := b } := rfl
@[simp] theorem State.setNmiPrev_bus (s : State) (b : Bool) : (s.setNmiPrev b).bus = s.bus := rfl
@[simp] theorem State.setNmiPrev_cia1 (s : State) (b : Bool) : (s.setNmiPrev b).cia1 = s.cia1 := rfl
@[simp] theorem State.setNmiPrev_cia2 (s : State) (b : Bool) : (s.setNmiPrev b).cia2 = s.cia2 := rfl
@[simp] theorem State.setNmiPrev_input (s : State) (b : Bool) : (s.setNmiPrev b).input = s.input := rfl
@[simp] theorem State.setNmiPrev_vic (s : State) (b : Bool) : (s.setNmiPrev b).vic = s.vic := rfl
@[simp] theorem State.setNmiPrev_aux (s : State) (b : Bool) : (s.setNmiPrev b).aux = s.aux := rfl

@[simp] theorem State.setNmiPending_config (s : State) (b : Bool) : (s.setNmiPending b).config = s.config := rfl
@[simp] theorem State.setNmiPending_cpu (s : State) (b : Bool) : (s.setNmiPending b).cpu = s.cpu := rfl
@[simp] theorem State.setNmiPending_engine (s : State) (b : Bool) : (s.setNmiPending b).engine = { s.engine with nmiPending := b } := rfl
@[simp] theorem State.setNmiPending_bus (s : State) (b : Bool) : (s.setNmiPending b).bus = s.bus := rfl
@[simp] theorem State.setNmiPending_cia1 (s : State) (b : Bool) : (s.setNmiPending b).cia1 = s.cia1 := rfl
@[simp] theorem State.setNmiPending_cia2 (s : State) (b : Bool) : (s.setNmiPending b).cia2 = s.cia2 := rfl
@[simp] theorem State.setNmiPending_input (s : State) (b : Bool) : (s.setNmiPending b).input = s.input := rfl
@[simp] theorem State.setNmiPending_vic (s : State) (b : Bool) : (s.setNmiPending b).vic = s.vic := rfl
@[simp] theorem State.setNmiPending_aux (s : State) (b : Bool) : (s.setNmiPending b).aux = s.aux := rfl

@[simp] theorem State.setLatch_config (s : State) (v : Byte) : (s.setLatch v).config = s.config := rfl
@[simp] theorem State.setLatch_cpu (s : State) (v : Byte) : (s.setLatch v).cpu = s.cpu := rfl
@[simp] theorem State.setLatch_engine (s : State) (v : Byte) : (s.setLatch v).engine = s.engine := rfl
@[simp] theorem State.setLatch_bus (s : State) (v : Byte) : (s.setLatch v).bus = { s.bus with bank := { s.bus.bank with latch := v } } := rfl
@[simp] theorem State.setLatch_cia1 (s : State) (v : Byte) : (s.setLatch v).cia1 = s.cia1 := rfl
@[simp] theorem State.setLatch_cia2 (s : State) (v : Byte) : (s.setLatch v).cia2 = s.cia2 := rfl
@[simp] theorem State.setLatch_input (s : State) (v : Byte) : (s.setLatch v).input = s.input := rfl
@[simp] theorem State.setLatch_vic (s : State) (v : Byte) : (s.setLatch v).vic = s.vic := rfl
@[simp] theorem State.setLatch_aux (s : State) (v : Byte) : (s.setLatch v).aux = s.aux := rfl

@[simp] theorem State.setRam_config (s : State) (m : Memory) : (s.setRam m).config = s.config := rfl
@[simp] theorem State.setRam_cpu (s : State) (m : Memory) : (s.setRam m).cpu = s.cpu := rfl
@[simp] theorem State.setRam_engine (s : State) (m : Memory) : (s.setRam m).engine = s.engine := rfl
@[simp] theorem State.setRam_bus (s : State) (m : Memory) : (s.setRam m).bus = { s.bus with ram := m } := rfl
@[simp] theorem State.setRam_cia1 (s : State) (m : Memory) : (s.setRam m).cia1 = s.cia1 := rfl
@[simp] theorem State.setRam_cia2 (s : State) (m : Memory) : (s.setRam m).cia2 = s.cia2 := rfl
@[simp] theorem State.setRam_input (s : State) (m : Memory) : (s.setRam m).input = s.input := rfl
@[simp] theorem State.setRam_vic (s : State) (m : Memory) : (s.setRam m).vic = s.vic := rfl
@[simp] theorem State.setRam_aux (s : State) (m : Memory) : (s.setRam m).aux = s.aux := rfl

@[simp] theorem State.setColorRam_config (s : State) (m : Memory) : (s.setColorRam m).config = s.config := rfl
@[simp] theorem State.setColorRam_cpu (s : State) (m : Memory) : (s.setColorRam m).cpu = s.cpu := rfl
@[simp] theorem State.setColorRam_engine (s : State) (m : Memory) : (s.setColorRam m).engine = s.engine := rfl
@[simp] theorem State.setColorRam_bus (s : State) (m : Memory) : (s.setColorRam m).bus = { s.bus with colorRam := m } := rfl
@[simp] theorem State.setColorRam_cia1 (s : State) (m : Memory) : (s.setColorRam m).cia1 = s.cia1 := rfl
@[simp] theorem State.setColorRam_cia2 (s : State) (m : Memory) : (s.setColorRam m).cia2 = s.cia2 := rfl
@[simp] theorem State.setColorRam_input (s : State) (m : Memory) : (s.setColorRam m).input = s.input := rfl
@[simp] theorem State.setColorRam_vic (s : State) (m : Memory) : (s.setColorRam m).vic = s.vic := rfl
@[simp] theorem State.setColorRam_aux (s : State) (m : Memory) : (s.setColorRam m).aux = s.aux := rfl

@[simp] theorem State.setCia1_config (s : State) (c : Cia) : (s.setCia1 c).config = s.config := rfl
@[simp] theorem State.setCia1_cpu (s : State) (c : Cia) : (s.setCia1 c).cpu = s.cpu := rfl
@[simp] theorem State.setCia1_engine (s : State) (c : Cia) : (s.setCia1 c).engine = s.engine := rfl
@[simp] theorem State.setCia1_bus (s : State) (c : Cia) : (s.setCia1 c).bus = s.bus := rfl
@[simp] theorem State.setCia1_cia1 (s : State) (c : Cia) : (s.setCia1 c).cia1 = c := rfl
@[simp] theorem State.setCia1_cia2 (s : State) (c : Cia) : (s.setCia1 c).cia2 = s.cia2 := rfl
@[simp] theorem State.setCia1_input (s : State) (c : Cia) : (s.setCia1 c).input = s.input := rfl
@[simp] theorem State.setCia1_vic (s : State) (c : Cia) : (s.setCia1 c).vic = s.vic := rfl
@[simp] theorem State.setCia1_aux (s : State) (c : Cia) : (s.setCia1 c).aux = s.aux := rfl

@[simp] theorem State.setCia2_config (s : State) (c : Cia) : (s.setCia2 c).config = s.config := rfl
@[simp] theorem State.setCia2_cpu (s : State) (c : Cia) : (s.setCia2 c).cpu = s.cpu := rfl
@[simp] theorem State.setCia2_engine (s : State) (c : Cia) : (s.setCia2 c).engine = s.engine := rfl
@[simp] theorem State.setCia2_bus (s : State) (c : Cia) : (s.setCia2 c).bus = s.bus := rfl
@[simp] theorem State.setCia2_cia1 (s : State) (c : Cia) : (s.setCia2 c).cia1 = s.cia1 := rfl
@[simp] theorem State.setCia2_cia2 (s : State) (c : Cia) : (s.setCia2 c).cia2 = c := rfl
@[simp] theorem State.setCia2_input (s : State) (c : Cia) : (s.setCia2 c).input = s.input := rfl
@[simp] theorem State.setCia2_vic (s : State) (c : Cia) : (s.setCia2 c).vic = s.vic := rfl
@[simp] theorem State.setCia2_aux (s : State) (c : Cia) : (s.setCia2 c).aux = s.aux := rfl

@[simp] theorem State.setVic_config (s : State) (v : Vic) : (s.setVic v).config = s.config := rfl
@[simp] theorem State.setVic_cpu (s : State) (v : Vic) : (s.setVic v).cpu = s.cpu := rfl
@[simp] theorem State.setVic_engine (s : State) (v : Vic) : (s.setVic v).engine = s.engine := rfl
@[simp] theorem State.setVic_bus (s : State) (v : Vic) : (s.setVic v).bus = s.bus := rfl
@[simp] theorem State.setVic_cia1 (s : State) (v : Vic) : (s.setVic v).cia1 = s.cia1 := rfl
@[simp] theorem State.setVic_cia2 (s : State) (v : Vic) : (s.setVic v).cia2 = s.cia2 := rfl
@[simp] theorem State.setVic_input (s : State) (v : Vic) : (s.setVic v).input = s.input := rfl
@[simp] theorem State.setVic_vic (s : State) (v : Vic) : (s.setVic v).vic = v := rfl
@[simp] theorem State.setVic_aux (s : State) (v : Vic) : (s.setVic v).aux = s.aux := rfl

@[simp] theorem State.setInput_config (s : State) (i : CiaInput) : (s.setInput i).config = s.config := rfl
@[simp] theorem State.setInput_cpu (s : State) (i : CiaInput) : (s.setInput i).cpu = s.cpu := rfl
@[simp] theorem State.setInput_engine (s : State) (i : CiaInput) : (s.setInput i).engine = s.engine := rfl
@[simp] theorem State.setInput_bus (s : State) (i : CiaInput) : (s.setInput i).bus = s.bus := rfl
@[simp] theorem State.setInput_cia1 (s : State) (i : CiaInput) : (s.setInput i).cia1 = s.cia1 := rfl
@[simp] theorem State.setInput_cia2 (s : State) (i : CiaInput) : (s.setInput i).cia2 = s.cia2 := rfl
@[simp] theorem State.setInput_input (s : State) (i : CiaInput) : (s.setInput i).input = i := rfl
@[simp] theorem State.setInput_vic (s : State) (i : CiaInput) : (s.setInput i).vic = s.vic := rfl
@[simp] theorem State.setInput_aux (s : State) (i : CiaInput) : (s.setInput i).aux = s.aux := rfl

@[simp] theorem State.setDraws_config (s : State) (n : Nat) : (s.setDraws n).config = s.config := rfl
@[simp] theorem State.setDraws_cpu (s : State) (n : Nat) : (s.setDraws n).cpu = s.cpu := rfl
@[simp] theorem State.setDraws_engine (s : State) (n : Nat) : (s.setDraws n).engine = s.engine := rfl
@[simp] theorem State.setDraws_bus (s : State) (n : Nat) : (s.setDraws n).bus = s.bus := rfl
@[simp] theorem State.setDraws_cia1 (s : State) (n : Nat) : (s.setDraws n).cia1 = s.cia1 := rfl
@[simp] theorem State.setDraws_cia2 (s : State) (n : Nat) : (s.setDraws n).cia2 = s.cia2 := rfl
@[simp] theorem State.setDraws_input (s : State) (n : Nat) : (s.setDraws n).input = s.input := rfl
@[simp] theorem State.setDraws_vic (s : State) (n : Nat) : (s.setDraws n).vic = s.vic := rfl
@[simp] theorem State.setDraws_aux (s : State) (n : Nat) : (s.setDraws n).aux = { s.aux with draws := n } := rfl

@[simp] theorem State.setReported_config (s : State) (n : Nat) : (s.setReported n).config = s.config := rfl
@[simp] theorem State.setReported_cpu (s : State) (n : Nat) : (s.setReported n).cpu = s.cpu := rfl
@[simp] theorem State.setReported_engine (s : State) (n : Nat) : (s.setReported n).engine = s.engine := rfl
@[simp] theorem State.setReported_bus (s : State) (n : Nat) : (s.setReported n).bus = s.bus := rfl
@[simp] theorem State.setReported_cia1 (s : State) (n : Nat) : (s.setReported n).cia1 = s.cia1 := rfl
@[simp] theorem State.setReported_cia2 (s : State) (n : Nat) : (s.setReported n).cia2 = s.cia2 := rfl
@[simp] theorem State.setReported_input (s : State) (n : Nat) : (s.setReported n).input = s.input := rfl
@[simp] theorem State.setReported_vic (s : State) (n : Nat) : (s.setReported n).vic = s.vic := rfl
@[simp] theorem State.setReported_aux (s : State) (n : Nat) : (s.setReported n).aux = { s.aux with reported := n } := rfl

end Sys2Proof.Machine
end

