-- ==== Sys2Proof/Laws/Bus.lean ====
section
/-! SUPPORT. What one bus access can do: every case of a read's effect and of a write, what neither changes, and accesses to the low
4 KiB, which is RAM in every bank configuration. -/

namespace Sys2Proof.Machine

theorem resolve_low {a : Addr} (h : a.toNat < 0x1000) (b : BankState) : resolve a b = .ram := by
  simp [resolve, h]

theorem setCia1_self (s : State) : s.setCia1 s.cia1 = s := rfl

theorem setCia2_self (s : State) : s.setCia2 s.cia2 = s := rfl

/-- Everything the device effect of a read can be (R111). -/
theorem readEffect_cases (a : Addr) (s : State) :
    readEffect a s = s ∨
    (a ≠ 0x0001#16 ∧ resolve a s.bus.bank = .io ∧ ioTarget a = .cia1 0xD#4 ∧
      readEffect a s = s.setCia1 { s.cia1 with icrFlags := 0#5 }) ∨
    (a ≠ 0x0001#16 ∧ resolve a s.bus.bank = .io ∧ ioTarget a = .cia2 0xD#4 ∧
      readEffect a s = s.setCia2 { s.cia2 with icrFlags := 0#5 }) := by
  by_cases ha : a = 0x0001#16
  · exact .inl (by simp [readEffect, ha])
  cases hr : resolve a s.bus.bank
  case io =>
    cases ht : ioTarget a
    case cia1 i =>
      by_cases hi : i = 0xD#4
      · subst hi
        exact .inr (.inl ⟨ha, rfl, rfl, by simp [readEffect, ha, hr, ht, Cia.afterRead]⟩)
      · exact .inl (by simp [readEffect, ha, hr, ht, Cia.afterRead, hi, setCia1_self])
    case cia2 i =>
      by_cases hi : i = 0xD#4
      · subst hi
        exact .inr (.inr ⟨ha, rfl, rfl, by simp [readEffect, ha, hr, ht, Cia.afterRead]⟩)
      · exact .inl (by simp [readEffect, ha, hr, ht, Cia.afterRead, hi, setCia2_self])
    all_goals exact .inl (by simp [readEffect, ha, hr, ht])
  all_goals exact .inl (by simp [readEffect, ha, hr])

/-- The read value of a visible ICR is not a draw. -/
theorem busSource_icr {a : Addr} {s : State} (ha : a ≠ 0x0001#16) (hr : resolve a s.bus.bank = .io)
    (ht : ioTarget a = .cia1 0xD#4 ∨ ioTarget a = .cia2 0xD#4) : ∃ v, busSource a s = some v := by
  rcases ht with ht | ht <;> simp [busSource, ha, hr, ioRead, ht, Cia.regRead]

/-- Everything a read can leave: nothing changed, one chip's flags cleared, or one more draw taken. -/
theorem afterRead_cases (a : Addr) (s : State) :
    (∃ v, busSource a s = some v ∧ afterRead a s = s) ∨
    (∃ v, busSource a s = some v ∧ a ≠ 0x0001#16 ∧ resolve a s.bus.bank = .io ∧ ioTarget a = .cia1 0xD#4 ∧
      afterRead a s = s.setCia1 { s.cia1 with icrFlags := 0#5 }) ∨
    (∃ v, busSource a s = some v ∧ a ≠ 0x0001#16 ∧ resolve a s.bus.bank = .io ∧ ioTarget a = .cia2 0xD#4 ∧
      afterRead a s = s.setCia2 { s.cia2 with icrFlags := 0#5 }) ∨
    (busSource a s = none ∧ afterRead a s = s.setDraws (s.aux.draws + 1)) := by
  rcases readEffect_cases a s with h | ⟨ha, hr, ht, h⟩ | ⟨ha, hr, ht, h⟩
  · cases hs : busSource a s with
    | none => exact .inr (.inr (.inr ⟨rfl, by simp [afterRead, hs, h]⟩))
    | some v => exact .inl ⟨v, rfl, by simp [afterRead, hs, h]⟩
  · obtain ⟨v, hv⟩ := busSource_icr ha hr (.inl ht)
    exact .inr (.inl ⟨v, hv, ha, hr, ht, by simp [afterRead, hv, h]⟩)
  · obtain ⟨v, hv⟩ := busSource_icr ha hr (.inr ht)
    exact .inr (.inr (.inl ⟨v, hv, ha, hr, ht, by simp [afterRead, hv, h]⟩))

/-! ### Where the regions are -/

/-- Where a region can be (R101). -/
def placeOf (n : Nat) : Region → Prop
  | .ram => True
  | .unmapped => 0x1000 ≤ n ∧ n < 0xD000
  | .roml => 0x8000 ≤ n ∧ n < 0xA000
  | .basic => 0xA000 ≤ n ∧ n < 0xC000
  | .romh => 0xA000 ≤ n
  | .char => 0xD000 ≤ n ∧ n < 0xE000
  | .io => 0xD000 ≤ n ∧ n < 0xE000
  | .kernal => 0xE000 ≤ n

theorem placeOf_ite {n : Nat} {c : Bool} {r q : Region} (hr : placeOf n r) (hq : placeOf n q) : placeOf n (if c then r else q) := by
  cases c
  · exact hq
  · exact hr

theorem resolve_place (a : Addr) (b : BankState) : placeOf a.toNat (resolve a b) := by
  simp only [resolve]
  split
  · trivial
  split
  · exact placeOf_ite ⟨by omega, by omega⟩ trivial
  split
  · exact placeOf_ite ⟨by omega, by omega⟩ (placeOf_ite ⟨by omega, by omega⟩ trivial)
  split
  · exact placeOf_ite ⟨by omega, by omega⟩ (placeOf_ite ⟨by omega, by omega⟩ (placeOf_ite (by simp only [placeOf]; omega) trivial))
  split
  · exact placeOf_ite ⟨by omega, by omega⟩ trivial
  split
  · have hio : placeOf a.toNat .io := ⟨by omega, by omega⟩
    have hch : placeOf a.toNat .char := hio
    exact placeOf_ite hio (placeOf_ite (placeOf_ite (placeOf_ite hio hch) trivial)
      (placeOf_ite (placeOf_ite hio trivial) (placeOf_ite hch trivial)))
  · exact placeOf_ite (by simp only [placeOf]; omega) (placeOf_ite (by simp only [placeOf]; omega) trivial)

/-! ### The I/O window -/

/-- The targets of the I/O window, by address (R103). -/
theorem ioTarget_cases (a : Addr) :
    (a.toNat < 0xD400 → ioTarget a = .vic (BitVec.ofNat 6 (a.toNat % 64))) ∧
    (0xD400 ≤ a.toNat → a.toNat < 0xD800 → ioTarget a = .sound) ∧
    (0xD800 ≤ a.toNat → a.toNat < 0xDC00 → ioTarget a = .color (BitVec.ofNat 10 (a.toNat - 0xD800))) ∧
    (0xDC00 ≤ a.toNat → a.toNat < 0xDD00 → ioTarget a = .cia1 (BitVec.ofNat 4 (a.toNat % 16))) ∧
    (0xDD00 ≤ a.toNat → a.toNat < 0xDE00 → ioTarget a = .cia2 (BitVec.ofNat 4 (a.toNat % 16))) ∧
    (0xDE00 ≤ a.toNat → ioTarget a = .expansion) := by
  have h6 : a.setWidth 6 = BitVec.ofNat 6 (a.toNat % 64) := BitVec.eq_of_toNat_eq (by simp)
  have h4 : a.setWidth 4 = BitVec.ofNat 4 (a.toNat % 16) := BitVec.eq_of_toNat_eq (by simp)
  have hc : 0xD800 ≤ a.toNat → (a - 0xD800#16).setWidth 10 = BitVec.ofNat 10 (a.toNat - 0xD800) := fun h => by
    apply BitVec.eq_of_toNat_eq
    simp
    have := a.isLt
    omega
  simp only [ioTarget]
  refine ⟨fun h => ?_, fun h1 h2 => ?_, fun h1 h2 => ?_, fun h1 h2 => ?_, fun h1 h2 => ?_, fun h => ?_⟩
  · rw [if_pos h, h6]
  · rw [if_neg (by omega), if_pos h2]
  · rw [if_neg (by omega), if_neg (by omega), if_pos h2]
    rw [hc h1]
  · rw [if_neg (by omega), if_neg (by omega), if_neg (by omega), if_pos h2, h4]
  · rw [if_neg (by omega), if_neg (by omega), if_neg (by omega), if_neg (by omega), if_pos h2, h4]
  · rw [if_neg (by omega), if_neg (by omega), if_neg (by omega), if_neg (by omega), if_neg (by omega)]

/-- A CIA1 register of the I/O window is in page 0xDC. -/
theorem ioTarget_cia1 {a : Addr} {i : BitVec 4} (h : ioTarget a = .cia1 i) :
    0xDC00 ≤ a.toNat ∧ a.toNat < 0xDD00 ∧ i = BitVec.ofNat 4 (a.toNat % 16) := by
  obtain ⟨h1, h2, h3, h4, h5, h6⟩ := ioTarget_cases a
  by_cases c1 : a.toNat < 0xD400
  · rw [h1 c1] at h; cases h
  by_cases c2 : a.toNat < 0xD800
  · rw [h2 (by omega) c2] at h; cases h
  by_cases c3 : a.toNat < 0xDC00
  · rw [h3 (by omega) c3] at h; cases h
  by_cases c4 : a.toNat < 0xDD00
  · rw [h4 (by omega) c4] at h
    cases h
    exact ⟨by omega, c4, rfl⟩
  by_cases c5 : a.toNat < 0xDE00
  · rw [h5 (by omega) c5] at h; cases h
  · rw [h6 (by omega)] at h; cases h

/-- A CIA2 register of the I/O window is in page 0xDD. -/
theorem ioTarget_cia2 {a : Addr} {i : BitVec 4} (h : ioTarget a = .cia2 i) :
    0xDD00 ≤ a.toNat ∧ a.toNat < 0xDE00 ∧ i = BitVec.ofNat 4 (a.toNat % 16) := by
  obtain ⟨h1, h2, h3, h4, h5, h6⟩ := ioTarget_cases a
  by_cases c1 : a.toNat < 0xD400
  · rw [h1 c1] at h; cases h
  by_cases c2 : a.toNat < 0xD800
  · rw [h2 (by omega) c2] at h; cases h
  by_cases c3 : a.toNat < 0xDC00
  · rw [h3 (by omega) c3] at h; cases h
  by_cases c4 : a.toNat < 0xDD00
  · rw [h4 (by omega) c4] at h; cases h
  by_cases c5 : a.toNat < 0xDE00
  · rw [h5 (by omega) c5] at h
    cases h
    exact ⟨by omega, c5, rfl⟩
  · rw [h6 (by omega)] at h; cases h

/-! ### What a read never changes -/

@[simp] theorem afterRead_cpu (a : Addr) (s : State) : (afterRead a s).cpu = s.cpu := by
  rcases afterRead_cases a s with ⟨_, _, h⟩ | ⟨_, _, _, _, _, h⟩ | ⟨_, _, _, _, _, h⟩ | ⟨_, h⟩ <;> simp [h]

@[simp] theorem afterRead_config (a : Addr) (s : State) : (afterRead a s).config = s.config := by
  rcases afterRead_cases a s with ⟨_, _, h⟩ | ⟨_, _, _, _, _, h⟩ | ⟨_, _, _, _, _, h⟩ | ⟨_, h⟩ <;> simp [h]

@[simp] theorem afterRead_engine (a : Addr) (s : State) : (afterRead a s).engine = s.engine := by
  rcases afterRead_cases a s with ⟨_, _, h⟩ | ⟨_, _, _, _, _, h⟩ | ⟨_, _, _, _, _, h⟩ | ⟨_, h⟩ <;> simp [h]

@[simp] theorem afterRead_bus (a : Addr) (s : State) : (afterRead a s).bus = s.bus := by
  rcases afterRead_cases a s with ⟨_, _, h⟩ | ⟨_, _, _, _, _, h⟩ | ⟨_, _, _, _, _, h⟩ | ⟨_, h⟩ <;> simp [h]

@[simp] theorem afterRead_input (a : Addr) (s : State) : (afterRead a s).input = s.input := by
  rcases afterRead_cases a s with ⟨_, _, h⟩ | ⟨_, _, _, _, _, h⟩ | ⟨_, _, _, _, _, h⟩ | ⟨_, h⟩ <;> simp [h]

@[simp] theorem afterRead_vic (a : Addr) (s : State) : (afterRead a s).vic = s.vic := by
  rcases afterRead_cases a s with ⟨_, _, h⟩ | ⟨_, _, _, _, _, h⟩ | ⟨_, _, _, _, _, h⟩ | ⟨_, h⟩ <;> simp [h]

@[simp] theorem afterRead_reported (a : Addr) (s : State) : (afterRead a s).aux.reported = s.aux.reported := by
  rcases afterRead_cases a s with ⟨_, _, h⟩ | ⟨_, _, _, _, _, h⟩ | ⟨_, _, _, _, _, h⟩ | ⟨_, h⟩ <;> simp [h]

theorem afterRead_cia1 (a : Addr) (s : State) :
    (afterRead a s).cia1 = s.cia1 ∨ (afterRead a s).cia1 = { s.cia1 with icrFlags := 0#5 } := by
  rcases afterRead_cases a s with ⟨_, _, h⟩ | ⟨_, _, _, _, _, h⟩ | ⟨_, _, _, _, _, h⟩ | ⟨_, h⟩ <;> simp [h]

theorem afterRead_cia2 (a : Addr) (s : State) :
    (afterRead a s).cia2 = s.cia2 ∨ (afterRead a s).cia2 = { s.cia2 with icrFlags := 0#5 } := by
  rcases afterRead_cases a s with ⟨_, _, h⟩ | ⟨_, _, _, _, _, h⟩ | ⟨_, _, _, _, _, h⟩ | ⟨_, h⟩ <;> simp [h]

/-! ### Writes -/

/-- Everything a write can do (R90, R112). -/
theorem memWrite_cases (a : Addr) (v : Byte) (s : State) :
    (a = 0x0001#16 ∧ memWrite a v s = s.setLatch v) ∨
    memWrite a v s = ramWrite a v s ∨
    (∃ i, resolve a s.bus.bank = .io ∧ ioTarget a = .vic i ∧ memWrite a v s = s.setVic (s.vic.regWrite i v)) ∨
    (∃ i, resolve a s.bus.bank = .io ∧ ioTarget a = .color i ∧
      memWrite a v s = s.setColorRam (Memory.put i.toNat v s.bus.colorRam)) ∨
    (∃ i, resolve a s.bus.bank = .io ∧ ioTarget a = .cia1 i ∧ memWrite a v s = s.setCia1 (s.cia1.regWrite i v)) ∨
    (∃ i, resolve a s.bus.bank = .io ∧ ioTarget a = .cia2 i ∧ memWrite a v s = s.setCia2 (s.cia2.regWrite i v)) ∨
    memWrite a v s = s := by
  by_cases ha : a = 0x0001#16
  · exact .inl ⟨ha, by simp [memWrite, ha]⟩
  refine .inr ?_
  cases hr : resolve a s.bus.bank
  case io =>
    cases ht : ioTarget a <;> simp [memWrite, ha, hr, ioWrite, ht]
  case roml => by_cases hu : s.bus.bank.ultimax = true <;> simp [memWrite, ha, hr, hu]
  case romh => by_cases hu : s.bus.bank.ultimax = true <;> simp [memWrite, ha, hr, hu]
  all_goals simp [memWrite, ha, hr]

@[simp] theorem ramWrite_cpu (a : Addr) (v : Byte) (s : State) : (ramWrite a v s).cpu = s.cpu := rfl

@[simp] theorem memWrite_cpu (a : Addr) (v : Byte) (s : State) : (memWrite a v s).cpu = s.cpu := by
  rcases memWrite_cases a v s with ⟨_, h⟩ | h | ⟨_, _, _, h⟩ | ⟨_, _, _, h⟩ | ⟨_, _, _, h⟩ | ⟨_, _, _, h⟩ | h <;>
    simp [h, ramWrite]

@[simp] theorem memWrite_config (a : Addr) (v : Byte) (s : State) : (memWrite a v s).config = s.config := by
  rcases memWrite_cases a v s with ⟨_, h⟩ | h | ⟨_, _, _, h⟩ | ⟨_, _, _, h⟩ | ⟨_, _, _, h⟩ | ⟨_, _, _, h⟩ | h <;>
    simp [h, ramWrite]

@[simp] theorem memWrite_engine (a : Addr) (v : Byte) (s : State) : (memWrite a v s).engine = s.engine := by
  rcases memWrite_cases a v s with ⟨_, h⟩ | h | ⟨_, _, _, h⟩ | ⟨_, _, _, h⟩ | ⟨_, _, _, h⟩ | ⟨_, _, _, h⟩ | h <;>
    simp [h, ramWrite]

@[simp] theorem memWrite_input (a : Addr) (v : Byte) (s : State) : (memWrite a v s).input = s.input := by
  rcases memWrite_cases a v s with ⟨_, h⟩ | h | ⟨_, _, _, h⟩ | ⟨_, _, _, h⟩ | ⟨_, _, _, h⟩ | ⟨_, _, _, h⟩ | h <;>
    simp [h, ramWrite]

@[simp] theorem memWrite_aux (a : Addr) (v : Byte) (s : State) : (memWrite a v s).aux = s.aux := by
  rcases memWrite_cases a v s with ⟨_, h⟩ | h | ⟨_, _, _, h⟩ | ⟨_, _, _, h⟩ | ⟨_, _, _, h⟩ | ⟨_, _, _, h⟩ | h <;>
    simp [h, ramWrite]

@[simp] theorem memWrite_cart (a : Addr) (v : Byte) (s : State) : (memWrite a v s).bus.cart = s.bus.cart := by
  rcases memWrite_cases a v s with ⟨_, h⟩ | h | ⟨_, _, _, h⟩ | ⟨_, _, _, h⟩ | ⟨_, _, _, h⟩ | ⟨_, _, _, h⟩ | h <;>
    simp [h, ramWrite]

@[simp] theorem memWrite_game (a : Addr) (v : Byte) (s : State) : (memWrite a v s).bus.bank.game = s.bus.bank.game := by
  rcases memWrite_cases a v s with ⟨_, h⟩ | h | ⟨_, _, _, h⟩ | ⟨_, _, _, h⟩ | ⟨_, _, _, h⟩ | ⟨_, _, _, h⟩ | h <;>
    simp [h, ramWrite]

@[simp] theorem memWrite_exrom (a : Addr) (v : Byte) (s : State) :
    (memWrite a v s).bus.bank.exrom = s.bus.bank.exrom := by
  rcases memWrite_cases a v s with ⟨_, h⟩ | h | ⟨_, _, _, h⟩ | ⟨_, _, _, h⟩ | ⟨_, _, _, h⟩ | ⟨_, _, _, h⟩ | h <;>
    simp [h, ramWrite]

/-- A write reaches no RAM byte but its own (R112). -/
theorem memWrite_ramByte_other {a b : Addr} (h : b ≠ a) (v : Byte) (s : State) :
    ramByte b (memWrite a v s).bus.ram = ramByte b s.bus.ram := by
  rcases memWrite_cases a v s with ⟨_, e⟩ | e | ⟨_, _, _, e⟩ | ⟨_, _, _, e⟩ | ⟨_, _, _, e⟩ | ⟨_, _, _, e⟩ | e <;>
    simp [e, ramWrite, ramByte_put_other h]

/-! ### The low 4 KiB -/

theorem busSource_low {a : Addr} (h : a.toNat < 0x1000) (s : State) :
    busSource a s = some (if a = 0x0001#16 then s.bus.bank.latch else ramByte a s.bus.ram) := by
  by_cases ha : a = 0x0001#16
  · simp [busSource, ha]
  · simp [busSource, ha, resolve_low h]

theorem busByte_low {a : Addr} (h : a.toNat < 0x1000) (s : State) :
    busByte a s = if a = 0x0001#16 then s.bus.bank.latch else ramByte a s.bus.ram := by
  simp [busByte, busSource_low h]

/-- A read of the low 4 KiB changes nothing. -/
theorem afterRead_low {a : Addr} (h : a.toNat < 0x1000) (s : State) : afterRead a s = s := by
  by_cases ha : a = 0x0001#16
  · simp [afterRead, busSource, readEffect, ha]
  · simp [afterRead, busSource_low h, readEffect, ha, resolve_low h]

theorem memWrite_low {a : Addr} (h : a.toNat < 0x1000) (ha : a ≠ 0x0001#16) (v : Byte) (s : State) :
    memWrite a v s = ramWrite a v s := by
  simp [memWrite, ha, resolve_low h]

theorem zeroPage_toNat (z : Byte) : (zeroPage z).toNat = z.toNat := by
  simp only [zeroPage, BitVec.toNat_setWidth]
  omega

theorem zeroPage_low (z : Byte) : (zeroPage z).toNat < 0x1000 := by
  rw [zeroPage_toNat]
  omega

/-- ZpRead16 reads two zero-page bytes and changes nothing (R14). -/
theorem zpRead16_eq (z : Byte) (s : State) :
    zpRead16 z s = (wordOf (busByte (zeroPage (z + 1#8)) s) (busByte (zeroPage z) s), s) := by
  have h1 : afterRead (z.setWidth 16) s = s := afterRead_low (zeroPage_low z) s
  have h2 : afterRead ((z + 1#8).setWidth 16) s = s := afterRead_low (zeroPage_low (z + 1#8)) s
  simp only [zpRead16, memRead, h1, h2, zeroPage]

end Sys2Proof.Machine
end

