-- ==== Sys2Proof/Laws/Chips.lean ====
section
/-! SUPPORT. What one tick of each chip does, in numbers, and the bits of a port byte. -/

namespace Sys2Proof.Machine

/-! ### The timer chips -/

theorem byteOfBits_getLsbD (f : Fin 8 → Bool) (k : Fin 8) : (byteOfBits f).getLsbD k = f k := by
  have h : ∀ a b c d e f g h : Bool, ∀ k : Fin 8,
      (BitVec.ofBool h ++ BitVec.ofBool g ++ BitVec.ofBool f ++ BitVec.ofBool e ++ BitVec.ofBool d ++ BitVec.ofBool c ++
        BitVec.ofBool b ++ BitVec.ofBool a).getLsbD k = (![a, b, c, d, e, f, g, h] k) := by decide
  rw [byteOfBits, h]
  fin_cases k <;> rfl

/-- The timer B half of a tick leaves timer A alone. -/
theorem Cia.tickB_timerA (u : Bool) (c : Cia) :
    (c.tickB u).ta = c.ta ∧ (c.tickB u).taLatch = c.taLatch ∧ (c.tickB u).cra = c.cra ∧
      (c.tickB u).icrFlags.getLsbD 0 = c.icrFlags.getLsbD 0 := by
  unfold Cia.tickB
  repeat' split
  all_goals simp

/-- The timer A half of a tick leaves timer B alone. -/
theorem Cia.tickA_timerB (c : Cia) :
    c.tickA.tb = c.tb ∧ c.tickA.tbLatch = c.tbLatch ∧ c.tickA.crb = c.crb ∧
      c.tickA.icrFlags.getLsbD 1 = c.icrFlags.getLsbD 1 := by
  unfold Cia.tickA
  repeat' split
  all_goals simp

/-- A tick of a started timer A that counts phi2 (R400, R401). -/
theorem Cia.tick_timerA {c : Cia} (h0 : c.cra.getLsbD 0 = true) (h5 : c.cra.getLsbD 5 = false) :
    c.tick.ta = (if c.ta = 0#16 then c.taLatch else c.ta - 1#16) ∧ c.tick.taLatch = c.taLatch ∧
      c.tick.cra = (if c.ta = 0#16 ∧ c.cra.getLsbD 3 = true then c.cra &&& 0xFE#8 else c.cra) ∧
      c.tick.icrFlags.getLsbD 0 = (c.icrFlags.getLsbD 0 || decide (c.ta = 0#16)) := by
  obtain ⟨h1, h2, h3, h4⟩ := Cia.tickB_timerA c.underflowsA c.tickA
  unfold Cia.tick
  rw [h1, h2, h3, h4]
  have hc : c.countsA = true := by
    simp only [Cia.countsA, h0, h5]
    rfl
  by_cases h : c.ta = 0#16
  · simp only [Cia.tickA, Cia.underflowsA, hc, h]
    simp
  · simp only [Cia.tickA, Cia.underflowsA, hc]
    simp [h]

/-- A tick of a started timer B that counts phi2 (R400, R402). -/
theorem Cia.tick_timerB {c : Cia} (h0 : c.crb.getLsbD 0 = true) (h5 : c.crb.getLsbD 5 = false) (h6 : c.crb.getLsbD 6 = false) :
    c.tick.tb = (if c.tb = 0#16 then c.tbLatch else c.tb - 1#16) ∧ c.tick.tbLatch = c.tbLatch ∧
      c.tick.crb = (if c.tb = 0#16 ∧ c.crb.getLsbD 3 = true then c.crb &&& 0xFE#8 else c.crb) ∧
      c.tick.icrFlags.getLsbD 1 = (c.icrFlags.getLsbD 1 || decide (c.tb = 0#16)) := by
  obtain ⟨h1, h2, h3, h4⟩ := Cia.tickA_timerB c
  have hm : c.crb.extractLsb' 5 2 = 0#2 := by
    apply BitVec.eq_of_getLsbD_eq
    intro i hi
    rw [BitVec.getLsbD_extractLsb']
    match i, hi with
    | 0, _ => simpa using h5
    | 1, _ => simpa using h6
  have hc : c.tickA.countsB c.underflowsA = true := by
    simp only [Cia.countsB, h3, h0, hm]
    rfl
  unfold Cia.tick Cia.tickB
  rw [if_pos hc, h1, h3]
  by_cases h : c.tb = 0#16
  · rw [if_pos h, if_pos h]
    simp [h, h2]
  · rw [if_neg h, if_neg h]
    simp [h, h2, h4, -BitVec.getLsbD_eq_getElem]

/-! ### The video chip -/

/-- The place in the frame, in cycles. -/
def Vic.position (g : Geometry) (v : Vic) : Nat := g.cyclesPerLine * v.rasterLine + v.rasterCycle

/-- How many cycles a frame has (R440). -/
def Geometry.frameCycles (g : Geometry) : Nat := g.cyclesPerLine * g.linesPerFrame

/-- A tick of the video chip moves one cycle on in the frame, counts the frames, and at the start of the compare line latches the raster
source (R450). -/
theorem Vic.tick_position {g : Geometry} {v : Vic} (h1 : v.rasterLine < g.linesPerFrame) (h2 : v.rasterCycle < g.cyclesPerLine) :
    (v.tick g).position g = (v.position g + 1) % g.frameCycles ∧ (v.tick g).rasterLine < g.linesPerFrame ∧
      (v.tick g).rasterCycle < g.cyclesPerLine ∧ (v.tick g).rasterCompare = v.rasterCompare ∧
      (v.tick g).frame = v.frame + (if v.position g + 1 = g.frameCycles then 1 else 0) ∧
      (v.tick g).irqFlags =
        if (v.position g + 1) % g.frameCycles = g.cyclesPerLine * v.rasterCompare.toNat then v.irqFlags ||| 1#4 else v.irqFlags := by
  obtain ⟨c, l⟩ := g
  simp only at h1 h2
  have hpos : v.position ⟨c, l⟩ = c * v.rasterLine + v.rasterCycle := rfl
  have hfr : Geometry.frameCycles ⟨c, l⟩ = c * l := rfl
  have hc0 : 0 < c := by omega
  have hstep : c * (v.rasterLine + 1) = c * v.rasterLine + c := Nat.mul_succ _ _
  have hle : c * (v.rasterLine + 1) ≤ c * l := Nat.mul_le_mul_left c h1
  unfold Vic.tick
  rw [hpos, hfr]
  by_cases hc : v.rasterCycle + 1 = c
  · rw [if_pos hc]
    have e : c * v.rasterLine + v.rasterCycle + 1 = c * (v.rasterLine + 1) := by omega
    rw [e]
    unfold Vic.nextLine
    by_cases hl : v.rasterLine + 1 = l
    · rw [if_pos hl, hl, Nat.mod_self, if_pos rfl]
      refine ⟨rfl, by simp only [Vic.lineStart]; omega, by simp only [Vic.lineStart]; omega, rfl, rfl, ?_⟩
      simp only [Vic.lineStart]
      refine if_congr ⟨fun h => by rw [← h, Nat.mul_zero], fun h => ?_⟩ rfl rfl
      rcases Nat.mul_eq_zero.1 h.symm with h | h <;> omega
    · rw [if_neg hl]
      have hlt : c * (v.rasterLine + 1) < c * l := Nat.mul_lt_mul_of_pos_left (by omega) hc0
      rw [Nat.mod_eq_of_lt hlt, if_neg (by omega)]
      refine ⟨rfl, by simp only [Vic.lineStart]; omega, by simp only [Vic.lineStart]; omega, rfl, rfl, ?_⟩
      simp only [Vic.lineStart]
      exact if_congr ⟨fun h => by rw [h], fun h => Nat.eq_of_mul_eq_mul_left hc0 h⟩ rfl rfl
  · rw [if_neg hc]
    have hlt : c * v.rasterLine + v.rasterCycle + 1 < c * l := by omega
    rw [Nat.mod_eq_of_lt hlt, if_neg (by omega)]
    refine ⟨rfl, h1, by simp only; omega, rfl, rfl, ?_⟩
    refine (if_neg fun h => ?_).symm
    have := congrArg (· % c) h
    simp only [Nat.mul_mod_right, Nat.add_assoc, Nat.mul_add_mod] at this
    rw [Nat.mod_eq_of_lt (by omega)] at this
    omega

end Sys2Proof.Machine
end

