-- ==== Sys2Proof/Laws/Decode.lean ====
section
/-! SUPPORT. What a row of the opcode table promises: each format's instruction encodes to the row's opcode and its operand bytes. -/

namespace Sys2Proof

/-- The instructions a row builds are well-formed, and their encoding is the row's opcode and the operand, low byte first. -/
def OpRow.sound (r : OpRow) : Prop :=
  match r.build with
  | .implied i => i.wellFormed = true ∧ encode i = [r.op] ∧ i.mode.length = 1
  | .byte f => ∀ b, (f b).wellFormed = true ∧ encode (f b) = [r.op, b] ∧ (f b).mode.length = 2
  | .word f => ∀ a, (f a).wellFormed = true ∧ encode (f a) = [r.op, loByte a, hiByte a] ∧ (f a).mode.length = 3

theorem opcodeTable_sound : ∀ r ∈ opcodeTable, r.sound := by
  simp only [opcodeTable, List.forall_mem_append, opcodeRow0, opcodeRow1, opcodeRow2, opcodeRow3, opcodeRow4, opcodeRow5,
    opcodeRow6, opcodeRow7, opcodeRow8, opcodeRow9, opcodeRowA, opcodeRowB, opcodeRowC, opcodeRowD, opcodeRowE, opcodeRowF,
    List.forall_mem_cons]
  repeat' apply And.intro
  all_goals first
    | exact fun _ => ⟨rfl, rfl, rfl⟩
    | rfl
    | exact fun _ h => absurd h List.not_mem_nil

/-- Each row's form names that row. -/
theorem lookupForm_table : ∀ r ∈ opcodeTable, lookupForm r.mnemonic r.mode = some r.build := by
  simp only [opcodeTable, List.forall_mem_append, opcodeRow0, opcodeRow1, opcodeRow2, opcodeRow3, opcodeRow4, opcodeRow5,
    opcodeRow6, opcodeRow7, opcodeRow8, opcodeRow9, opcodeRowA, opcodeRowB, opcodeRowC, opcodeRowD, opcodeRowE, opcodeRowF,
    List.forall_mem_cons]
  repeat' apply And.intro
  all_goals first
    | rfl
    | exact fun _ h => absurd h List.not_mem_nil

/-- The default table answers an opcode byte with the row of the opcode map that has it. -/
theorem lookupOp_default (op : Byte) : lookupOp defaultIsa op = (opcodeTable.find? fun r => r.op == op).map (·.build) := by
  rw [lookupOp, defaultIsa, List.find?_map]
  cases h : opcodeTable.find? fun r => r.op == op with
  | none =>
    have : (opcodeTable.find? ((fun r : IsaRow => r.op == op) ∘ fun r => ⟨r.op, r.mnemonic, r.mode⟩)) = none := h
    rw [this]
    rfl
  | some r =>
    have : (opcodeTable.find? ((fun r : IsaRow => r.op == op) ∘ fun r => ⟨r.op, r.mnemonic, r.mode⟩)) = some r := h
    rw [this]
    exact lookupForm_table r (List.mem_of_find?_eq_some h)

/-- What the look-up of an opcode byte answers comes from a row with that byte. -/
theorem lookupOp_row {op : Byte} {b : Build} (h : lookupOp defaultIsa op = some b) :
    ∃ r ∈ opcodeTable, r.op = op ∧ r.build = b := by
  rw [lookupOp_default] at h
  obtain ⟨r, hr, rfl⟩ := Option.map_eq_some_iff.1 h
  exact ⟨r, List.mem_of_find?_eq_some hr, by simpa using List.find?_some hr, rfl⟩

/-- Bytes that the default table decodes are bytes that any table with the same rows decodes: the look-up is all that differs. -/
theorem decodeWith_congr {isa : List IsaRow} {op : Byte} (h : lookupOp isa op = lookupOp defaultIsa op) (bs : List Byte) :
    decodeWith isa (op :: bs) = decodeBytes (op :: bs) := by
  simp only [decodeBytes, decodeWith, h]

end Sys2Proof
end

