-- ==== Sys2Proof/Laws/Disk.lean ====
section
/-! SUPPORT. Reading the sectors of one track: what a long enough stream gives, and where a short one fails. -/

namespace Sys2Proof.Machine

theorem getElem_sectorOf {b : List Byte} {j : Nat} (h : j < 256) : (sectorOf b)[j] = b[j]?.getD 0x00#8 := by
  simp [sectorOf]

/-- With the bytes there, `n` sectors are read, byte `j` of the `k`-th being byte `256*k + j` of the stream. -/
theorem parseSectors_ok (t n i : Nat) (bs : List Byte) (h : 256 * n ≤ bs.length) :
    ∃ ss, parseSectors t n i bs = .ok (ss, bs.drop (256 * n)) ∧ ss.length = n ∧
      ∀ k, k < n → ∃ sec, ss[k]? = some sec ∧ ∀ j, (hj : j < 256) → some sec[j] = bs[256 * k + j]? := by
  induction n generalizing i bs with
  | zero => exact ⟨[], rfl, rfl, fun k hk => absurd hk (Nat.not_lt_zero k)⟩
  | succ n ih =>
    have hl : ¬(bs.take 256).length < 256 := by
      rw [List.length_take]
      omega
    obtain ⟨ss, h1, h2, h3⟩ := ih (i + 1) (bs.drop 256) (by rw [List.length_drop]; omega)
    refine ⟨sectorOf (bs.take 256) :: ss, ?_, by simp [h2], fun k hk => ?_⟩
    · rw [parseSectors, if_neg hl, h1]
      simp [Nat.mul_add, Nat.add_comm]
    · cases k with
      | zero =>
        refine ⟨_, rfl, fun j hj => ?_⟩
        rw [getElem_sectorOf, List.getElem?_take, if_pos hj, Nat.mul_zero, Nat.zero_add,
          List.getElem?_eq_getElem (show j < bs.length by omega)]
        rfl
      | succ k =>
        obtain ⟨sec, ha, hb⟩ := h3 k (by omega)
        refine ⟨sec, by simpa using ha, fun j hj => ?_⟩
        rw [hb j hj, List.getElem?_drop]
        congr 1
        omega

/-- Otherwise reading fails at the first sector whose 256 bytes are not all there. -/
theorem parseSectors_error (t n i : Nat) (bs : List Byte) (h : bs.length < 256 * n) :
    ∃ k, k < n ∧ 256 * k ≤ bs.length ∧ bs.length < 256 * k + 256 ∧
      parseSectors t n i bs = .error (.diskTruncated t (i + k)) := by
  induction n generalizing i bs with
  | zero => omega
  | succ n ih =>
    by_cases hl : bs.length < 256
    · exact ⟨0, by omega, by omega, by omega, by rw [parseSectors, if_pos (by rw [List.length_take]; omega)]; rfl⟩
    · obtain ⟨k, ha, hb, hc, hd⟩ := ih (i + 1) (bs.drop 256) (by rw [List.length_drop]; omega)
      rw [List.length_drop] at hb hc
      refine ⟨k + 1, by omega, by omega, by omega, ?_⟩
      rw [parseSectors, if_neg (by rw [List.length_take]; omega), hd]
      simp only []
      congr 2
      omega

end Sys2Proof.Machine
end

