-- ==== Sys2Proof/Laws/Words.lean ====
section
/-! SUPPORT. The byte halves of a 16-bit word, as numbers and against each other. -/

namespace Sys2Proof

theorem toNat_wordOf (h l : Byte) : (wordOf h l).toNat = 256 * h.toNat + l.toNat := by
  simp only [wordOf, BitVec.toNat_append]
  rw [← Nat.shiftLeft_add_eq_or_of_lt l.isLt, Nat.shiftLeft_eq]
  omega

theorem toNat_loByte (a : Addr) : (loByte a).toNat = a.toNat % 256 := by
  simp [loByte]

theorem toNat_hiByte (a : Addr) : (hiByte a).toNat = a.toNat / 256 := by
  simp only [hiByte, BitVec.extractLsb'_toNat, Nat.shiftRight_eq_div_pow]
  have := a.isLt
  omega

@[simp] theorem wordOf_hi_lo (a : Addr) : wordOf (hiByte a) (loByte a) = a := by
  apply BitVec.eq_of_toNat_eq
  rw [toNat_wordOf, toNat_hiByte, toNat_loByte]
  omega

@[simp] theorem loByte_wordOf (h l : Byte) : loByte (wordOf h l) = l := by
  apply BitVec.eq_of_toNat_eq
  rw [toNat_loByte, toNat_wordOf]
  have := l.isLt
  omega

@[simp] theorem hiByte_wordOf (h l : Byte) : hiByte (wordOf h l) = h := by
  apply BitVec.eq_of_toNat_eq
  rw [toNat_hiByte, toNat_wordOf]
  have := l.isLt
  omega

namespace Machine

/-- The stack stays in page 0x01 (R31). -/
theorem stackAddr_toNat (sp : Byte) : (stackAddr sp).toNat = 0x100 + sp.toNat := by
  rw [stackAddr, toNat_wordOf]
  rfl

theorem stackAddr_low (sp : Byte) : (stackAddr sp).toNat < 0x1000 := by
  rw [stackAddr_toNat]
  have := sp.isLt
  omega

theorem stackAddr_ne_latch (sp : Byte) : stackAddr sp ≠ 0x0001#16 := by
  intro h
  have := congrArg BitVec.toNat h
  rw [stackAddr_toNat] at this
  simp at this
  omega

theorem stackAddr_inj {p q : Byte} : stackAddr p = stackAddr q ↔ p = q := by
  constructor
  · intro h
    have := congrArg BitVec.toNat h
    rw [stackAddr_toNat, stackAddr_toNat] at this
    apply BitVec.eq_of_toNat_eq
    omega
  · rintro rfl
    rfl

end Machine

end Sys2Proof
end

