-- ==== Sys2Proof/Laws/Operands.lean ====
section
/-! SUPPORT. Each effective address as a number (R152 to R159), and that resolving an operand changes nothing. -/

namespace Sys2Proof.Machine

theorem zeroPage_eq (z : Byte) : zeroPage z = BitVec.ofNat 16 z.toNat := by
  apply BitVec.eq_of_toNat_eq
  rw [zeroPage_toNat, BitVec.toNat_ofNat]
  omega

theorem zeroPage_add (z x : Byte) : zeroPage (z + x) = BitVec.ofNat 16 ((z.toNat + x.toNat) % 256) := by
  rw [zeroPage_eq, BitVec.toNat_add]

theorem opZp_eq (z : Byte) (s : State) : opZp z s = ⟨BitVec.ofNat 16 z.toNat, false, s⟩ := by
  rw [opZp, zeroPage_eq]

theorem opZpx_eq (z : Byte) (s : State) : opZpx z s = ⟨BitVec.ofNat 16 ((z.toNat + s.cpu.x.toNat) % 256), false, s⟩ := by
  rw [opZpx, zeroPage_add]

theorem opZpy_eq (z : Byte) (s : State) : opZpy z s = ⟨BitVec.ofNat 16 ((z.toNat + s.cpu.y.toNat) % 256), false, s⟩ := by
  rw [opZpy, zeroPage_add]

theorem opAbs_eq (a : Addr) (s : State) : opAbs a s = ⟨a, false, s⟩ := rfl

theorem add_setWidth (a : Addr) (i : Byte) : a + i.setWidth 16 = BitVec.ofNat 16 (a.toNat + i.toNat) := by
  apply BitVec.eq_of_toNat_eq
  rw [BitVec.toNat_add, BitVec.toNat_setWidth, BitVec.toNat_ofNat]
  omega

theorem hiByte_ne (a b : Addr) : (hiByte a != hiByte b) = decide (a.toNat / 256 ≠ b.toNat / 256) := by
  have : hiByte a = hiByte b ↔ a.toNat / 256 = b.toNat / 256 := by
    rw [← toNat_hiByte, ← toNat_hiByte, BitVec.toNat_inj]
  by_cases h : hiByte a = hiByte b <;> simp [bne, h, ← this]

theorem indexed_eq (a : Addr) (i : Byte) (s : State) :
    indexed a i s =
      ⟨BitVec.ofNat 16 (a.toNat + i.toNat), decide (a.toNat / 256 ≠ (a.toNat + i.toNat) % 65536 / 256), s⟩ := by
  simp only [indexed, hiByte_ne, add_setWidth, BitVec.toNat_ofNat]

theorem opAbsx_eq (a : Addr) (s : State) :
    opAbsx a s = ⟨BitVec.ofNat 16 (a.toNat + s.cpu.x.toNat),
      decide (a.toNat / 256 ≠ (a.toNat + s.cpu.x.toNat) % 65536 / 256), s⟩ :=
  indexed_eq a s.cpu.x s

theorem opAbsy_eq (a : Addr) (s : State) :
    opAbsy a s = ⟨BitVec.ofNat 16 (a.toNat + s.cpu.y.toNat),
      decide (a.toNat / 256 ≠ (a.toNat + s.cpu.y.toNat) % 65536 / 256), s⟩ :=
  indexed_eq a s.cpu.y s

/-- The pointer whose low byte is at the zero-page byte `z`, as a number (R14). -/
theorem zpRead16_toNat (z : Byte) (s : State) :
    (zpRead16 z s).1.toNat =
      (busByte (BitVec.ofNat 16 z.toNat) s).toNat + 256 * (busByte (BitVec.ofNat 16 ((z.toNat + 1) % 256)) s).toNat := by
  have e : (z + 1#8).toNat = (z.toNat + 1) % 256 := BitVec.toNat_add z 1#8
  rw [zpRead16_eq, toNat_wordOf, zeroPage_eq, zeroPage_eq, e]
  omega

theorem zpRead16_state (z : Byte) (s : State) : (zpRead16 z s).2 = s := by rw [zpRead16_eq]

theorem eq_ofNat_toNat (a : Addr) : a = BitVec.ofNat 16 a.toNat := by simp

theorem opIndx_eq (z : Byte) (s : State) :
    opIndx z s =
      ⟨BitVec.ofNat 16 ((busByte (BitVec.ofNat 16 ((z.toNat + s.cpu.x.toNat) % 256)) s).toNat +
        256 * (busByte (BitVec.ofNat 16 ((z.toNat + s.cpu.x.toNat + 1) % 256)) s).toNat), false, s⟩ := by
  simp only [opIndx, zpRead16_state]
  rw [eq_ofNat_toNat (zpRead16 _ s).1, zpRead16_toNat, BitVec.toNat_add]
  simp only [Nat.reducePow, Nat.mod_add_mod]

theorem opIndy_eq (z : Byte) (s : State) :
    opIndy z s =
      let p := (busByte (BitVec.ofNat 16 z.toNat) s).toNat + 256 * (busByte (BitVec.ofNat 16 ((z.toNat + 1) % 256)) s).toNat
      ⟨BitVec.ofNat 16 (p + s.cpu.y.toNat), decide (p / 256 ≠ (p + s.cpu.y.toNat) % 65536 / 256), s⟩ := by
  simp only [opIndy, zpRead16_state, indexed_eq, zpRead16_toNat]

/-- The page-wrapped second place of an indirect pointer (R156). -/
theorem pointer_wrap (a : Addr) :
    wordOf (hiByte a) (loByte a + 1#8) = BitVec.ofNat 16 (256 * (a.toNat / 256) + (a.toNat + 1) % 256) := by
  apply BitVec.eq_of_toNat_eq
  rw [toNat_wordOf, toNat_hiByte, BitVec.toNat_add, toNat_loByte, BitVec.toNat_ofNat]
  simp only [BitVec.toNat_ofNat, Nat.reducePow, Nat.reduceMod]
  have := a.isLt
  omega

/-- A branch target as a signed sum (R159). -/
theorem branchTarget_eq (pc : Addr) (off : Byte) : branchTarget pc off = BitVec.ofInt 16 (pc.toNat + 2 + off.toInt) := by
  apply BitVec.eq_of_toInt_eq
  simp only [branchTarget, branchOffset, BitVec.toInt_add, BitVec.toInt_signExtend, BitVec.toInt_ofInt]
  simp only [BitVec.toInt_eq_toNat_bmod, BitVec.toNat_ofNat]
  simp

end Sys2Proof.Machine
end

