-- ==== Sys2Proof/Laws/Ops.lean ====
section
/-! SUPPORT. What the shared operations of Ops.lean do, said once: the stack, taking an exception and returning from one, the NMI
sampler, the ticks, the poll. -/

namespace Sys2Proof.Machine

/-! ### The stack -/

/-- A push writes one byte of RAM in the stack page, in every bank configuration (R230). -/
theorem push_eq (v : Byte) (s : State) :
    push v s = (s.setRam (Memory.put (0x100 + s.cpu.sp.toNat) v s.bus.ram)).setSp (s.cpu.sp - 1#8) := by
  rw [push, memWrite_low (stackAddr_low _) (stackAddr_ne_latch _), ramWrite, stackAddr_toNat]

/-- A pull reads one byte of RAM in the stack page and changes nothing but S (R230). -/
theorem pull_eq (s : State) :
    pull s = (ramByte (stackAddr (s.cpu.sp + 1#8)) s.bus.ram, s.setSp (s.cpu.sp + 1#8)) := by
  rw [pull, memRead, busByte_low (stackAddr_low _), if_neg (stackAddr_ne_latch _), afterRead_low (stackAddr_low _)]
  rfl

theorem sub_one_sub_one (b : Byte) : b - 1#8 - 1#8 = b - 2#8 := by rw [BitVec.sub_sub]; rfl

theorem sub_two_sub_one (b : Byte) : b - 2#8 - 1#8 = b - 3#8 := by rw [BitVec.sub_sub]; rfl

theorem add_one_add_one (b : Byte) : b + 1#8 + 1#8 = b + 2#8 := by rw [BitVec.add_assoc]; rfl

theorem add_two_add_one (b : Byte) : b + 2#8 + 1#8 = b + 3#8 := by rw [BitVec.add_assoc]; rfl

theorem pushWord_eq (w : Addr) (s : State) :
    pushWord w s =
      (s.setRam (Memory.put (0x100 + (s.cpu.sp - 1#8).toNat) (loByte w)
        (Memory.put (0x100 + s.cpu.sp.toNat) (hiByte w) s.bus.ram))).setSp (s.cpu.sp - 2#8) := by
  simp only [pushWord, push_eq, State.setSp_cpu, State.setRam_cpu, State.setSp_bus, State.setRam_bus, sub_one_sub_one]
  rfl

theorem pullWord_eq (s : State) :
    pullWord s =
      (wordOf (ramByte (stackAddr (s.cpu.sp + 2#8)) s.bus.ram) (ramByte (stackAddr (s.cpu.sp + 1#8)) s.bus.ram),
        s.setSp (s.cpu.sp + 2#8)) := by
  simp only [pullWord, pull_eq, State.setSp_cpu, State.setSp_bus, add_one_add_one]
  rfl

/-! ### Vector reads -/

/-- Above the I/O window a read depends on the bank lines, the cartridge, the RAM byte there and the draw counter only, and changes
nothing but that counter. -/
theorem resolve_high {a : Addr} (h : 0xE000 ≤ a.toNat) (b : BankState) :
    resolve a b = .romh ∨ resolve a b = .kernal ∨ resolve a b = .ram := by
  have h1 : ¬a.toNat < 0x1000 := by omega
  have h2 : ¬a.toNat < 0x8000 := by omega
  have h3 : ¬a.toNat < 0xA000 := by omega
  have h4 : ¬a.toNat < 0xC000 := by omega
  have h5 : ¬a.toNat < 0xD000 := by omega
  have h6 : ¬a.toNat < 0xE000 := by omega
  simp only [resolve, if_neg h1, if_neg h2, if_neg h3, if_neg h4, if_neg h5, if_neg h6]
  split
  · exact .inl rfl
  · split
    · exact .inr (.inl rfl)
    · exact .inr (.inr rfl)

theorem ne_latch_of_high {a : Addr} (h : 0xE000 ≤ a.toNat) : a ≠ 0x0001#16 := by
  rintro rfl
  simp at h

theorem busSource_high_congr {a : Addr} (h : 0xE000 ≤ a.toNat) {s t : State} (hb : t.bus.bank = s.bus.bank)
    (hc : t.bus.cart = s.bus.cart) (hr : ramByte a t.bus.ram = ramByte a s.bus.ram) : busSource a t = busSource a s := by
  have hn := ne_latch_of_high h
  rcases resolve_high h s.bus.bank with h' | h' | h' <;> simp [busSource, hn, hb, hc, hr, h']

theorem readEffect_high {a : Addr} (h : 0xE000 ≤ a.toNat) (s : State) : readEffect a s = s := by
  have hn := ne_latch_of_high h
  rcases resolve_high h s.bus.bank with h' | h' | h' <;> simp [readEffect, hn, h']

/-- How many draws a read of `a` takes: 1 where its value is one. -/
def drawsTaken (a : Addr) (s : State) : Nat := if (busSource a s).isSome then 0 else 1

theorem afterRead_high {a : Addr} (h : 0xE000 ≤ a.toNat) (s : State) :
    afterRead a s = s.setDraws (s.aux.draws + drawsTaken a s) := by
  rw [afterRead, readEffect_high h, drawsTaken]
  cases busSource a s <;> rfl

/-- A vector read is the same in two states that agree on the bank, the cartridge, the two RAM bytes and the draw counter. -/
theorem memRead16_high_congr {a : Addr} (h : 0xE000 ≤ a.toNat) (h' : 0xE000 ≤ (a + 1#16).toNat) {s t : State}
    (hb : t.bus.bank = s.bus.bank) (hc : t.bus.cart = s.bus.cart) (hd : t.aux.draws = s.aux.draws)
    (hr : ∀ b : Addr, 0xE000 ≤ b.toNat → ramByte b t.bus.ram = ramByte b s.bus.ram) :
    (memRead16 a t).1 = (memRead16 a s).1 ∧
      (memRead16 a t).2 = t.setDraws (memRead16 a s).2.aux.draws ∧
      (memRead16 a s).2 = s.setDraws (memRead16 a s).2.aux.draws := by
  have e1 := busSource_high_congr h hb hc (hr a h)
  have e2 : busSource (a + 1#16) (afterRead a t) = busSource (a + 1#16) (afterRead a s) :=
    busSource_high_congr h' (by simp [hb]) (by simp [hc]) (by simpa using hr _ h')
  have d1 : drawsTaken a t = drawsTaken a s := by simp [drawsTaken, e1]
  have d2 : drawsTaken (a + 1#16) (afterRead a t) = drawsTaken (a + 1#16) (afterRead a s) := by simp [drawsTaken, e2]
  have d3 : (afterRead a t).aux.draws = (afterRead a s).aux.draws := by simp [afterRead_high h, hd, d1]
  refine ⟨?_, ?_, ?_⟩
  · simp [memRead16, memRead, busByte, e1, e2, d3, hd]
  · change afterRead (a + 1#16) (afterRead a t) = t.setDraws (afterRead (a + 1#16) (afterRead a s)).aux.draws
    rw [afterRead_high h' (afterRead a t), afterRead_high h' (afterRead a s), d2, d3, afterRead_high h t]
    rfl
  · change afterRead (a + 1#16) (afterRead a s) = s.setDraws (afterRead (a + 1#16) (afterRead a s)).aux.draws
    rw [afterRead_high h' (afterRead a s), afterRead_high h s]
    rfl

/-! ### Exceptions -/

/-- What taking an exception leaves, in one equation: RAM with the three pushes, S down by 3, I set, PC from the vector as the state
before the pushes reads it, and the draws of that read (R304, R365). -/
theorem takeException_eq {vector : Addr} (h : 0xE000 ≤ vector.toNat) (h' : 0xE000 ≤ (vector + 1#16).toNat) (ret : Addr)
    (brk : Bool) (s : State) :
    takeException ret brk vector s =
      ((((s.setRam (Memory.put (0x100 + (s.cpu.sp - 2#8).toNat) (s.cpu.p.pbyte brk)
          (Memory.put (0x100 + (s.cpu.sp - 1#8).toNat) (loByte ret)
            (Memory.put (0x100 + s.cpu.sp.toNat) (hiByte ret) s.bus.ram)))).setSp (s.cpu.sp - 3#8)).setP
              { s.cpu.p with i := true }).setDraws (memRead16 vector s).2.aux.draws).setPc (memRead16 vector s).1 := by
  have hother : ∀ (k : Byte) (b : Addr) (v : Byte) (m : Memory), 0xE000 ≤ b.toNat →
      ramByte b (Memory.put (0x100 + k.toNat) v m) = ramByte b m := by
    intro k b v m hb
    rw [← stackAddr_toNat]
    refine ramByte_put_other (fun e => ?_) v m
    have h1 := stackAddr_low k
    rw [← e] at h1
    omega
  simp only [takeException, pushWord_eq, push_eq, State.setSp_cpu, State.setRam_cpu, State.setSp_bus, State.setRam_bus,
    sub_two_sub_one]
  generalize hu : State.setP _ _ = u
  have hb : u.bus.bank = s.bus.bank := by rw [← hu]; rfl
  have hc : u.bus.cart = s.bus.cart := by rw [← hu]; rfl
  have hd : u.aux.draws = s.aux.draws := by rw [← hu]; rfl
  have hr : ∀ b : Addr, 0xE000 ≤ b.toNat → ramByte b u.bus.ram = ramByte b s.bus.ram := by
    intro b hb
    rw [← hu]
    exact (hother _ _ _ _ hb).trans ((hother _ _ _ _ hb).trans (hother _ _ _ _ hb))
  obtain ⟨e1, e2, -⟩ := memRead16_high_congr h h' hb hc hd hr
  rw [e1, e2, ← hu]
  rfl

/-- What returning from an exception leaves, in one equation (R303). -/
theorem returnFromException_eq (s : State) :
    returnFromException s =
      ((s.setSp (s.cpu.sp + 3#8)).setP (Flags.ofPbyte (ramByte (stackAddr (s.cpu.sp + 1#8)) s.bus.ram))).setPc
        (wordOf (ramByte (stackAddr (s.cpu.sp + 3#8)) s.bus.ram) (ramByte (stackAddr (s.cpu.sp + 2#8)) s.bus.ram)) := by
  have e : s.cpu.sp + 1#8 + 2#8 = s.cpu.sp + 3#8 := by rw [BitVec.add_assoc]; rfl
  simp only [returnFromException, pull_eq, pullWord_eq, State.setP_cpu, State.setSp_cpu, State.setP_bus, State.setSp_bus,
    add_one_add_one, e]
  rfl

/-! ### The NMI sampler, the ticks and notification -/

@[simp] theorem sampleNmi_cpu (s : State) : (sampleNmi s).cpu = s.cpu := rfl

@[simp] theorem sampleNmi_config (s : State) : (sampleNmi s).config = s.config := rfl

@[simp] theorem sampleNmi_bus (s : State) : (sampleNmi s).bus = s.bus := rfl

@[simp] theorem sampleNmi_cia1 (s : State) : (sampleNmi s).cia1 = s.cia1 := rfl

@[simp] theorem sampleNmi_cia2 (s : State) : (sampleNmi s).cia2 = s.cia2 := rfl

@[simp] theorem sampleNmi_vic (s : State) : (sampleNmi s).vic = s.vic := rfl

@[simp] theorem sampleNmi_input (s : State) : (sampleNmi s).input = s.input := rfl

@[simp] theorem sampleNmi_aux (s : State) : (sampleNmi s).aux = s.aux := rfl

@[simp] theorem sampleNmi_nmiPrev (s : State) : (sampleNmi s).engine.nmiPrev = s.cia2.irq := rfl

@[simp] theorem sampleNmi_status (s : State) : (sampleNmi s).engine.status = s.engine.status := rfl

@[simp] theorem sampleNmi_breakpoint (s : State) : (sampleNmi s).engine.breakpoint = s.engine.breakpoint := rfl

@[simp] theorem sampleNmi_cycles (s : State) : (sampleNmi s).engine.cycles = s.engine.cycles := rfl

/-- The three ticks of one cycle, in order (R186). -/
theorem tickAll_eq (s : State) :
    tickAll s = ((s.setCia1 s.cia1.tick).setCia2 s.cia2.tick).setVic (s.vic.tick s.config.geometry) := rfl

@[simp] theorem notifyCycle_cpu (s : State) : (notifyCycle s).cpu = s.cpu := rfl

@[simp] theorem notifyCycle_config (s : State) : (notifyCycle s).config = s.config := rfl

@[simp] theorem notifyCycle_bus (s : State) : (notifyCycle s).bus = s.bus := rfl

@[simp] theorem notifyCycle_input (s : State) : (notifyCycle s).input = s.input := rfl

@[simp] theorem notifyCycle_aux (s : State) : (notifyCycle s).aux = s.aux := rfl

@[simp] theorem notifyCycle_cia1 (s : State) : (notifyCycle s).cia1 = s.cia1.tick := rfl

@[simp] theorem notifyCycle_cia2 (s : State) : (notifyCycle s).cia2 = s.cia2.tick := rfl

@[simp] theorem notifyCycle_vic (s : State) : (notifyCycle s).vic = s.vic.tick s.config.geometry := rfl

@[simp] theorem notifyCycle_cycles (s : State) : (notifyCycle s).engine.cycles = s.engine.cycles + 1 := rfl

@[simp] theorem notifyCycle_status (s : State) : (notifyCycle s).engine.status = s.engine.status := rfl

@[simp] theorem notifyCycle_breakpoint (s : State) : (notifyCycle s).engine.breakpoint = s.engine.breakpoint := rfl

@[simp] theorem notifyCycle_nmiPrev (s : State) : (notifyCycle s).engine.nmiPrev = s.cia2.tick.irq := rfl

@[simp] theorem notify_cpu (c : Nat) (s : State) : (notify c s).cpu = s.cpu := by
  induction c generalizing s <;> simp [notify, *]

@[simp] theorem notify_config (c : Nat) (s : State) : (notify c s).config = s.config := by
  induction c generalizing s <;> simp [notify, *]

@[simp] theorem notify_bus (c : Nat) (s : State) : (notify c s).bus = s.bus := by
  induction c generalizing s <;> simp [notify, *]

@[simp] theorem notify_input (c : Nat) (s : State) : (notify c s).input = s.input := by
  induction c generalizing s <;> simp [notify, *]

@[simp] theorem notify_aux (c : Nat) (s : State) : (notify c s).aux = s.aux := by
  induction c generalizing s <;> simp [notify, *]

@[simp] theorem notify_status (c : Nat) (s : State) : (notify c s).engine.status = s.engine.status := by
  induction c generalizing s <;> simp [notify, *]

@[simp] theorem notify_breakpoint (c : Nat) (s : State) : (notify c s).engine.breakpoint = s.engine.breakpoint := by
  induction c generalizing s <;> simp [notify, *]

@[simp] theorem notify_cycles (c : Nat) (s : State) : (notify c s).engine.cycles = s.engine.cycles + c := by
  induction c generalizing s with
  | zero => rfl
  | succ c ih => rw [notify, ih, notifyCycle_cycles]; omega

/-- Notification ends with a sample, so an up-to-date sampler stays up to date. -/
theorem notify_nmiPrev (c : Nat) {s : State} (h : s.engine.nmiPrev = s.cia2.irq) :
    (notify c s).engine.nmiPrev = (notify c s).cia2.irq := by
  induction c generalizing s with
  | zero => exact h
  | succ c ih => exact ih rfl

/-! ### Interrupt entry and the poll -/

@[simp] theorem takeException_engine (ret : Addr) (brk : Bool) (v : Addr) (s : State) :
    (takeException ret brk v s).engine = s.engine := by
  simp [takeException, pushWord, push, memRead16, memRead]

@[simp] theorem takeException_config (ret : Addr) (brk : Bool) (v : Addr) (s : State) :
    (takeException ret brk v s).config = s.config := by
  simp [takeException, pushWord, push, memRead16, memRead]

@[simp] theorem takeException_input (ret : Addr) (brk : Bool) (v : Addr) (s : State) :
    (takeException ret brk v s).input = s.input := by
  simp [takeException, pushWord, push, memRead16, memRead]

@[simp] theorem takeException_reported (ret : Addr) (brk : Bool) (v : Addr) (s : State) :
    (takeException ret brk v s).aux.reported = s.aux.reported := by
  simp [takeException, pushWord, push, memRead16, memRead]

theorem vector_high (k : InterruptKind) : 0xE000 ≤ k.vector.toNat ∧ 0xE000 ≤ (k.vector + 1#16).toNat := by
  cases k <;> decide

/-- An entry's own 7 cycles (R365). -/
theorem interruptEntry_cycles (k : InterruptKind) (s : State) :
    (interruptEntry k s).engine.cycles = s.engine.cycles + 7 := by
  simp [interruptEntry]

/-- Everything a poll can do (R187). -/
theorem poll_cases (s : State) :
    (s.engine.nmiPending = true ∧ poll s = interruptEntry .nmi (s.setNmiPending false)) ∨
    (s.engine.nmiPending = false ∧ irqLine s = true ∧ s.cpu.p.i = false ∧ poll s = interruptEntry .irq s) ∨
    (s.engine.nmiPending = false ∧ (irqLine s = false ∨ s.cpu.p.i = true) ∧ poll s = s) := by
  cases hp : s.engine.nmiPending
  · cases hl : irqLine s <;> cases hi : s.cpu.p.i <;> simp [poll, hp, hl, hi]
  · simp [poll, hp]

end Sys2Proof.Machine
end

