-- ==== Sys2Proof/Laws/Exec.lean ====
section
/-! SUPPORT. What an instruction and a step can do, said once: an instruction is a chain of bus reads, bus writes, register updates and a
report of cycles, so a property that each of these keeps is kept by all 151, by interrupt entry and by fetching. -/

namespace Sys2Proof.Machine

/-- A property that a bus read, a bus write, an update of the registers and a report of cycles keep. -/
structure Closed (P : State → Prop) : Prop where
  read : ∀ a s, P s → P (afterRead a s)
  write : ∀ a v s, P s → P (memWrite a v s)
  cpu : ∀ c s, P s → P { s with cpu := c }
  reported : ∀ n s, P s → P (s.setReported n)

namespace Closed

variable {P : State → Prop} (hP : Closed P) {s : State}

include hP

theorem retire {m : Mnemonic} {md : Mode} {c : Bool} (h : P s) : P (retire m md c s) := hP.reported _ _ (hP.cpu _ _ h)

theorem jumpTo {a : Addr} {c : Nat} (h : P s) : P (jumpTo a c s) := hP.reported _ _ (hP.cpu _ _ h)

theorem push {v : Byte} (h : P s) : P (push v s) := hP.cpu _ _ (hP.write _ _ _ h)

theorem pull (h : P s) : P (pull s).2 := hP.read _ _ (hP.cpu _ _ h)

theorem pushWord {w : Addr} (h : P s) : P (pushWord w s) := hP.push (hP.push h)

theorem pullWord (h : P s) : P (pullWord s).2 := hP.pull (hP.pull h)

theorem memRead16 {a : Addr} (h : P s) : P (memRead16 a s).2 := hP.read _ _ (hP.read _ _ h)

theorem zpRead16 {z : Byte} (h : P s) : P (zpRead16 z s).2 := hP.read _ _ (hP.read _ _ h)

theorem takeException {r : Addr} {b : Bool} {v : Addr} (h : P s) : P (takeException r b v s) :=
  hP.cpu _ _ (hP.memRead16 (hP.cpu _ _ (hP.push (hP.pushWord h))))

theorem returnFromException (h : P s) : P (returnFromException s) :=
  hP.cpu _ _ (hP.pullWord (hP.cpu _ _ (hP.pull h)))

theorem opIndx {z : Byte} (h : P s) : P (opIndx z s).st := hP.zpRead16 h

theorem opIndy {z : Byte} (h : P s) : P (opIndy z s).st := hP.zpRead16 h

theorem readRetire {m : Mnemonic} {md : Mode} {f : Byte → State → State} {o : Operand} (hf : ∀ v t, P t → P (f v t))
    (h : P o.st) : P (readRetire m md f o) :=
  hP.retire (hf _ _ (hP.read _ _ h))

theorem storeRetire {m : Mnemonic} {md : Mode} {v : Byte} {o : Operand} (h : P o.st) : P (storeRetire m md v o) :=
  hP.retire (hP.write _ _ _ h)

theorem modifyRetire {m : Mnemonic} {md : Mode} {f : Flags → Byte → Byte} {g : Flags → Byte → Flags} {o : Operand}
    (h : P o.st) : P (modifyRetire m md f g o) :=
  hP.retire (hP.cpu _ _ (hP.write _ _ _ (hP.read _ _ h)))

theorem branch {m : Mnemonic} {c : Bool} {off : Byte} (h : P s) : P (branch m c off s) := by
  unfold Machine.branch
  split
  · exact hP.jumpTo h
  · exact hP.retire h

theorem readBytes {n : Nat} {a : Addr} (h : P s) : P (readBytes n a s).2 := by
  induction n generalizing a s with
  | zero => exact h
  | succ n ih => exact ih (hP.read _ _ h)

theorem fetchBytes (h : P s) : P (fetchBytes s).2 := hP.readBytes (hP.read _ _ h)

/-- Every instruction completes, and keeps a closed property. -/
theorem exec (i : Instr) (h : P s) : ∃ t, exec i s = .next t ∧ P t :=
  match i with
  | .ldaIndx _ => ⟨_, rfl, hP.readRetire (fun _ t ht => hP.cpu _ t ht) (hP.opIndx h)⟩
  | .ldaZp _ => ⟨_, rfl, hP.readRetire (fun _ t ht => hP.cpu _ t ht) h⟩
  | .ldaImm _ => ⟨_, rfl, hP.retire (hP.cpu _ s h)⟩
  | .ldaAbs _ => ⟨_, rfl, hP.readRetire (fun _ t ht => hP.cpu _ t ht) h⟩
  | .ldaIndy _ => ⟨_, rfl, hP.readRetire (fun _ t ht => hP.cpu _ t ht) (hP.opIndy h)⟩
  | .ldaZpx _ => ⟨_, rfl, hP.readRetire (fun _ t ht => hP.cpu _ t ht) h⟩
  | .ldaAbsy _ => ⟨_, rfl, hP.readRetire (fun _ t ht => hP.cpu _ t ht) h⟩
  | .ldaAbsx _ => ⟨_, rfl, hP.readRetire (fun _ t ht => hP.cpu _ t ht) h⟩
  | .ldxImm _ => ⟨_, rfl, hP.retire (hP.cpu _ s h)⟩
  | .ldxZp _ => ⟨_, rfl, hP.readRetire (fun _ t ht => hP.cpu _ t ht) h⟩
  | .ldxAbs _ => ⟨_, rfl, hP.readRetire (fun _ t ht => hP.cpu _ t ht) h⟩
  | .ldxZpy _ => ⟨_, rfl, hP.readRetire (fun _ t ht => hP.cpu _ t ht) h⟩
  | .ldxAbsy _ => ⟨_, rfl, hP.readRetire (fun _ t ht => hP.cpu _ t ht) h⟩
  | .ldyImm _ => ⟨_, rfl, hP.retire (hP.cpu _ s h)⟩
  | .ldyZp _ => ⟨_, rfl, hP.readRetire (fun _ t ht => hP.cpu _ t ht) h⟩
  | .ldyAbs _ => ⟨_, rfl, hP.readRetire (fun _ t ht => hP.cpu _ t ht) h⟩
  | .ldyZpx _ => ⟨_, rfl, hP.readRetire (fun _ t ht => hP.cpu _ t ht) h⟩
  | .ldyAbsx _ => ⟨_, rfl, hP.readRetire (fun _ t ht => hP.cpu _ t ht) h⟩
  | .staIndx _ => ⟨_, rfl, hP.storeRetire (hP.opIndx h)⟩
  | .staZp _ => ⟨_, rfl, hP.storeRetire h⟩
  | .staAbs _ => ⟨_, rfl, hP.storeRetire h⟩
  | .staIndy _ => ⟨_, rfl, hP.storeRetire (hP.opIndy h)⟩
  | .staZpx _ => ⟨_, rfl, hP.storeRetire h⟩
  | .staAbsy _ => ⟨_, rfl, hP.storeRetire h⟩
  | .staAbsx _ => ⟨_, rfl, hP.storeRetire h⟩
  | .stxZp _ => ⟨_, rfl, hP.storeRetire h⟩
  | .stxAbs _ => ⟨_, rfl, hP.storeRetire h⟩
  | .stxZpy _ => ⟨_, rfl, hP.storeRetire h⟩
  | .styZp _ => ⟨_, rfl, hP.storeRetire h⟩
  | .styAbs _ => ⟨_, rfl, hP.storeRetire h⟩
  | .styZpx _ => ⟨_, rfl, hP.storeRetire h⟩
  | .tax => ⟨_, rfl, hP.retire (hP.cpu _ s h)⟩
  | .tay => ⟨_, rfl, hP.retire (hP.cpu _ s h)⟩
  | .tsx => ⟨_, rfl, hP.retire (hP.cpu _ s h)⟩
  | .txa => ⟨_, rfl, hP.retire (hP.cpu _ s h)⟩
  | .txs => ⟨_, rfl, hP.retire (hP.cpu _ s h)⟩
  | .tya => ⟨_, rfl, hP.retire (hP.cpu _ s h)⟩
  | .pha => ⟨_, rfl, hP.retire (hP.push h)⟩
  | .php => ⟨_, rfl, hP.retire (hP.push h)⟩
  | .pla => ⟨_, rfl, hP.retire (hP.cpu _ (Machine.pull s).2 (hP.pull h))⟩
  | .plp => ⟨_, rfl, hP.retire (hP.cpu _ (Machine.pull s).2 (hP.pull h))⟩
  | .adcIndx _ => ⟨_, rfl, hP.readRetire (fun _ t ht => hP.cpu _ t ht) (hP.opIndx h)⟩
  | .adcZp _ => ⟨_, rfl, hP.readRetire (fun _ t ht => hP.cpu _ t ht) h⟩
  | .adcImm _ => ⟨_, rfl, hP.retire (hP.cpu _ s h)⟩
  | .adcAbs _ => ⟨_, rfl, hP.readRetire (fun _ t ht => hP.cpu _ t ht) h⟩
  | .adcIndy _ => ⟨_, rfl, hP.readRetire (fun _ t ht => hP.cpu _ t ht) (hP.opIndy h)⟩
  | .adcZpx _ => ⟨_, rfl, hP.readRetire (fun _ t ht => hP.cpu _ t ht) h⟩
  | .adcAbsy _ => ⟨_, rfl, hP.readRetire (fun _ t ht => hP.cpu _ t ht) h⟩
  | .adcAbsx _ => ⟨_, rfl, hP.readRetire (fun _ t ht => hP.cpu _ t ht) h⟩
  | .sbcIndx _ => ⟨_, rfl, hP.readRetire (fun _ t ht => hP.cpu _ t ht) (hP.opIndx h)⟩
  | .sbcZp _ => ⟨_, rfl, hP.readRetire (fun _ t ht => hP.cpu _ t ht) h⟩
  | .sbcImm _ => ⟨_, rfl, hP.retire (hP.cpu _ s h)⟩
  | .sbcAbs _ => ⟨_, rfl, hP.readRetire (fun _ t ht => hP.cpu _ t ht) h⟩
  | .sbcIndy _ => ⟨_, rfl, hP.readRetire (fun _ t ht => hP.cpu _ t ht) (hP.opIndy h)⟩
  | .sbcZpx _ => ⟨_, rfl, hP.readRetire (fun _ t ht => hP.cpu _ t ht) h⟩
  | .sbcAbsy _ => ⟨_, rfl, hP.readRetire (fun _ t ht => hP.cpu _ t ht) h⟩
  | .sbcAbsx _ => ⟨_, rfl, hP.readRetire (fun _ t ht => hP.cpu _ t ht) h⟩
  | .cmpIndx _ => ⟨_, rfl, hP.readRetire (fun _ t ht => hP.cpu _ t ht) (hP.opIndx h)⟩
  | .cmpZp _ => ⟨_, rfl, hP.readRetire (fun _ t ht => hP.cpu _ t ht) h⟩
  | .cmpImm _ => ⟨_, rfl, hP.retire (hP.cpu _ s h)⟩
  | .cmpAbs _ => ⟨_, rfl, hP.readRetire (fun _ t ht => hP.cpu _ t ht) h⟩
  | .cmpIndy _ => ⟨_, rfl, hP.readRetire (fun _ t ht => hP.cpu _ t ht) (hP.opIndy h)⟩
  | .cmpZpx _ => ⟨_, rfl, hP.readRetire (fun _ t ht => hP.cpu _ t ht) h⟩
  | .cmpAbsy _ => ⟨_, rfl, hP.readRetire (fun _ t ht => hP.cpu _ t ht) h⟩
  | .cmpAbsx _ => ⟨_, rfl, hP.readRetire (fun _ t ht => hP.cpu _ t ht) h⟩
  | .cpxImm _ => ⟨_, rfl, hP.retire (hP.cpu _ s h)⟩
  | .cpxZp _ => ⟨_, rfl, hP.readRetire (fun _ t ht => hP.cpu _ t ht) h⟩
  | .cpxAbs _ => ⟨_, rfl, hP.readRetire (fun _ t ht => hP.cpu _ t ht) h⟩
  | .cpyImm _ => ⟨_, rfl, hP.retire (hP.cpu _ s h)⟩
  | .cpyZp _ => ⟨_, rfl, hP.readRetire (fun _ t ht => hP.cpu _ t ht) h⟩
  | .cpyAbs _ => ⟨_, rfl, hP.readRetire (fun _ t ht => hP.cpu _ t ht) h⟩
  | .incZp _ => ⟨_, rfl, hP.modifyRetire h⟩
  | .incAbs _ => ⟨_, rfl, hP.modifyRetire h⟩
  | .incZpx _ => ⟨_, rfl, hP.modifyRetire h⟩
  | .incAbsx _ => ⟨_, rfl, hP.modifyRetire h⟩
  | .decZp _ => ⟨_, rfl, hP.modifyRetire h⟩
  | .decAbs _ => ⟨_, rfl, hP.modifyRetire h⟩
  | .decZpx _ => ⟨_, rfl, hP.modifyRetire h⟩
  | .decAbsx _ => ⟨_, rfl, hP.modifyRetire h⟩
  | .inx => ⟨_, rfl, hP.retire (hP.cpu _ s h)⟩
  | .iny => ⟨_, rfl, hP.retire (hP.cpu _ s h)⟩
  | .dex => ⟨_, rfl, hP.retire (hP.cpu _ s h)⟩
  | .dey => ⟨_, rfl, hP.retire (hP.cpu _ s h)⟩
  | .andIndx _ => ⟨_, rfl, hP.readRetire (fun _ t ht => hP.cpu _ t ht) (hP.opIndx h)⟩
  | .andZp _ => ⟨_, rfl, hP.readRetire (fun _ t ht => hP.cpu _ t ht) h⟩
  | .andImm _ => ⟨_, rfl, hP.retire (hP.cpu _ s h)⟩
  | .andAbs _ => ⟨_, rfl, hP.readRetire (fun _ t ht => hP.cpu _ t ht) h⟩
  | .andIndy _ => ⟨_, rfl, hP.readRetire (fun _ t ht => hP.cpu _ t ht) (hP.opIndy h)⟩
  | .andZpx _ => ⟨_, rfl, hP.readRetire (fun _ t ht => hP.cpu _ t ht) h⟩
  | .andAbsy _ => ⟨_, rfl, hP.readRetire (fun _ t ht => hP.cpu _ t ht) h⟩
  | .andAbsx _ => ⟨_, rfl, hP.readRetire (fun _ t ht => hP.cpu _ t ht) h⟩
  | .oraIndx _ => ⟨_, rfl, hP.readRetire (fun _ t ht => hP.cpu _ t ht) (hP.opIndx h)⟩
  | .oraZp _ => ⟨_, rfl, hP.readRetire (fun _ t ht => hP.cpu _ t ht) h⟩
  | .oraImm _ => ⟨_, rfl, hP.retire (hP.cpu _ s h)⟩
  | .oraAbs _ => ⟨_, rfl, hP.readRetire (fun _ t ht => hP.cpu _ t ht) h⟩
  | .oraIndy _ => ⟨_, rfl, hP.readRetire (fun _ t ht => hP.cpu _ t ht) (hP.opIndy h)⟩
  | .oraZpx _ => ⟨_, rfl, hP.readRetire (fun _ t ht => hP.cpu _ t ht) h⟩
  | .oraAbsy _ => ⟨_, rfl, hP.readRetire (fun _ t ht => hP.cpu _ t ht) h⟩
  | .oraAbsx _ => ⟨_, rfl, hP.readRetire (fun _ t ht => hP.cpu _ t ht) h⟩
  | .eorIndx _ => ⟨_, rfl, hP.readRetire (fun _ t ht => hP.cpu _ t ht) (hP.opIndx h)⟩
  | .eorZp _ => ⟨_, rfl, hP.readRetire (fun _ t ht => hP.cpu _ t ht) h⟩
  | .eorImm _ => ⟨_, rfl, hP.retire (hP.cpu _ s h)⟩
  | .eorAbs _ => ⟨_, rfl, hP.readRetire (fun _ t ht => hP.cpu _ t ht) h⟩
  | .eorIndy _ => ⟨_, rfl, hP.readRetire (fun _ t ht => hP.cpu _ t ht) (hP.opIndy h)⟩
  | .eorZpx _ => ⟨_, rfl, hP.readRetire (fun _ t ht => hP.cpu _ t ht) h⟩
  | .eorAbsy _ => ⟨_, rfl, hP.readRetire (fun _ t ht => hP.cpu _ t ht) h⟩
  | .eorAbsx _ => ⟨_, rfl, hP.readRetire (fun _ t ht => hP.cpu _ t ht) h⟩
  | .bitZp _ => ⟨_, rfl, hP.readRetire (fun _ t ht => hP.cpu _ t ht) h⟩
  | .bitAbs _ => ⟨_, rfl, hP.readRetire (fun _ t ht => hP.cpu _ t ht) h⟩
  | .aslZp _ => ⟨_, rfl, hP.modifyRetire h⟩
  | .aslAcc => ⟨_, rfl, hP.retire (hP.cpu _ s h)⟩
  | .aslAbs _ => ⟨_, rfl, hP.modifyRetire h⟩
  | .aslZpx _ => ⟨_, rfl, hP.modifyRetire h⟩
  | .aslAbsx _ => ⟨_, rfl, hP.modifyRetire h⟩
  | .lsrZp _ => ⟨_, rfl, hP.modifyRetire h⟩
  | .lsrAcc => ⟨_, rfl, hP.retire (hP.cpu _ s h)⟩
  | .lsrAbs _ => ⟨_, rfl, hP.modifyRetire h⟩
  | .lsrZpx _ => ⟨_, rfl, hP.modifyRetire h⟩
  | .lsrAbsx _ => ⟨_, rfl, hP.modifyRetire h⟩
  | .rolZp _ => ⟨_, rfl, hP.modifyRetire h⟩
  | .rolAcc => ⟨_, rfl, hP.retire (hP.cpu _ s h)⟩
  | .rolAbs _ => ⟨_, rfl, hP.modifyRetire h⟩
  | .rolZpx _ => ⟨_, rfl, hP.modifyRetire h⟩
  | .rolAbsx _ => ⟨_, rfl, hP.modifyRetire h⟩
  | .rorZp _ => ⟨_, rfl, hP.modifyRetire h⟩
  | .rorAcc => ⟨_, rfl, hP.retire (hP.cpu _ s h)⟩
  | .rorAbs _ => ⟨_, rfl, hP.modifyRetire h⟩
  | .rorZpx _ => ⟨_, rfl, hP.modifyRetire h⟩
  | .rorAbsx _ => ⟨_, rfl, hP.modifyRetire h⟩
  | .jmpAbs _ => ⟨_, rfl, hP.jumpTo h⟩
  | .jmpInd _ => ⟨_, rfl, hP.jumpTo (hP.read _ _ (hP.read _ _ h))⟩
  | .jsr _ => ⟨_, rfl, hP.jumpTo (hP.pushWord h)⟩
  | .rts => ⟨_, rfl, hP.jumpTo (hP.pullWord h)⟩
  | .rti => ⟨_, rfl, hP.reported _ _ (hP.returnFromException h)⟩
  | .brk => ⟨_, rfl, hP.reported _ _ (hP.takeException h)⟩
  | .bcc _ => ⟨_, rfl, hP.branch h⟩
  | .bcs _ => ⟨_, rfl, hP.branch h⟩
  | .beq _ => ⟨_, rfl, hP.branch h⟩
  | .bmi _ => ⟨_, rfl, hP.branch h⟩
  | .bne _ => ⟨_, rfl, hP.branch h⟩
  | .bpl _ => ⟨_, rfl, hP.branch h⟩
  | .bvc _ => ⟨_, rfl, hP.branch h⟩
  | .bvs _ => ⟨_, rfl, hP.branch h⟩
  | .clc => ⟨_, rfl, hP.retire (hP.cpu _ s h)⟩
  | .cld => ⟨_, rfl, hP.retire (hP.cpu _ s h)⟩
  | .cli => ⟨_, rfl, hP.retire (hP.cpu _ s h)⟩
  | .clv => ⟨_, rfl, hP.retire (hP.cpu _ s h)⟩
  | .sec => ⟨_, rfl, hP.retire (hP.cpu _ s h)⟩
  | .sed => ⟨_, rfl, hP.retire (hP.cpu _ s h)⟩
  | .sei => ⟨_, rfl, hP.retire (hP.cpu _ s h)⟩
  | .nop => ⟨_, rfl, hP.retire h⟩

end Closed

/-- Every instruction answers a next state (R358). -/
theorem exec_next (i : Instr) (s : State) : ∃ t, exec i s = .next t := by
  obtain ⟨t, h, -⟩ := Closed.exec (P := fun _ => True)
    ⟨fun _ _ _ => trivial, fun _ _ _ _ => trivial, fun _ _ _ => trivial, fun _ _ _ => trivial⟩ i (s := s) trivial
  exact ⟨t, h⟩

/-- What no bus access, register update or report changes: the Config, the engine, the input, the cartridge and its lines. -/
theorem closed_host (s : State) :
    Closed fun t => t.config = s.config ∧ t.engine = s.engine ∧ t.input = s.input ∧ t.bus.cart = s.bus.cart ∧
      t.bus.bank.game = s.bus.bank.game ∧ t.bus.bank.exrom = s.bus.bank.exrom where
  read a t h := by simpa using h
  write a v t h := by simpa using h
  cpu c t h := h
  reported n t h := h

/-- Everything a step can do: it stops, halts, faults, or executes the decoded instruction and finishes. -/
theorem step_cases (s : State) :
    (∃ pc, s.engine.status = .halted pc ∧ step s = .fault (.stoppedHalted pc)) ∨
    (∃ f, s.engine.status = .faulted f ∧ step s = .fault (.stoppedFaulted f)) ∨
    (s.engine.status = .running ∧ s.engine.breakpoint = some s.cpu.pc ∧ step s = .next (haltAtBreakpoint s)) ∨
    (s.engine.status = .running ∧ s.engine.breakpoint ≠ some s.cpu.pc ∧ (∃ e, decodeWith s.config.isa (fetchBytes s).1 = .error e) ∧
      step s = .next (raiseIllegalOpcode (busByte s.cpu.pc s) (fetchBytes s).2)) ∨
    (s.engine.status = .running ∧ s.engine.breakpoint ≠ some s.cpu.pc ∧
      ∃ i rest t, decodeWith s.config.isa (fetchBytes s).1 = .ok (i, rest) ∧ exec i (fetchBytes s).2 = .next t ∧
        step s = .next (finishStep t)) := by
  cases hs : s.engine.status with
  | halted pc => exact .inl ⟨pc, rfl, by simp [step, hs]⟩
  | faulted f => exact .inr (.inl ⟨f, rfl, by simp [step, hs]⟩)
  | running =>
    by_cases hb : s.engine.breakpoint = some s.cpu.pc
    · exact .inr (.inr (.inl ⟨rfl, hb, by simp [step, hs, hb]⟩))
    · refine .inr (.inr (.inr ?_))
      cases hd : decodeWith s.config.isa (fetchBytes s).1 with
      | error e => exact .inl ⟨rfl, hb, ⟨e, rfl⟩, by simp [step, hs, hb, hd]⟩
      | ok p =>
        obtain ⟨t, ht⟩ := exec_next p.1 (fetchBytes s).2
        exact .inr ⟨rfl, hb, p.1, p.2, t, rfl, ht, by simp [step, hs, hb, hd, ht]⟩

end Sys2Proof.Machine
end

