-- ==== Sys2Proof/Laws/Fetch.lean ====
section
/-! SUPPORT. What fetching an instruction leaves alone, and a fetch from bytes that are no draws and no interrupt control register. -/

namespace Sys2Proof.Machine

@[simp] theorem readBytes_cpu (n : Nat) (a : Addr) (s : State) : (readBytes n a s).2.cpu = s.cpu := by
  induction n generalizing a s <;> simp [readBytes, memRead, *]

@[simp] theorem readBytes_config (n : Nat) (a : Addr) (s : State) : (readBytes n a s).2.config = s.config := by
  induction n generalizing a s <;> simp [readBytes, memRead, *]

@[simp] theorem readBytes_engine (n : Nat) (a : Addr) (s : State) : (readBytes n a s).2.engine = s.engine := by
  induction n generalizing a s <;> simp [readBytes, memRead, *]

@[simp] theorem readBytes_bus (n : Nat) (a : Addr) (s : State) : (readBytes n a s).2.bus = s.bus := by
  induction n generalizing a s <;> simp [readBytes, memRead, *]

@[simp] theorem readBytes_input (n : Nat) (a : Addr) (s : State) : (readBytes n a s).2.input = s.input := by
  induction n generalizing a s <;> simp [readBytes, memRead, *]

@[simp] theorem readBytes_vic (n : Nat) (a : Addr) (s : State) : (readBytes n a s).2.vic = s.vic := by
  induction n generalizing a s <;> simp [readBytes, memRead, *]

@[simp] theorem readBytes_reported (n : Nat) (a : Addr) (s : State) : (readBytes n a s).2.aux.reported = s.aux.reported := by
  induction n generalizing a s <;> simp [readBytes, memRead, *]

@[simp] theorem fetchBytes_cpu (s : State) : (fetchBytes s).2.cpu = s.cpu := by
  simp [fetchBytes, memRead]

@[simp] theorem fetchBytes_config (s : State) : (fetchBytes s).2.config = s.config := by
  simp [fetchBytes, memRead]

@[simp] theorem fetchBytes_engine (s : State) : (fetchBytes s).2.engine = s.engine := by
  simp [fetchBytes, memRead]

@[simp] theorem fetchBytes_bus (s : State) : (fetchBytes s).2.bus = s.bus := by
  simp [fetchBytes, memRead]

@[simp] theorem fetchBytes_input (s : State) : (fetchBytes s).2.input = s.input := by
  simp [fetchBytes, memRead]

@[simp] theorem fetchBytes_vic (s : State) : (fetchBytes s).2.vic = s.vic := by
  simp [fetchBytes, memRead]

@[simp] theorem fetchBytes_reported (s : State) : (fetchBytes s).2.aux.reported = s.aux.reported := by
  simp [fetchBytes, memRead]

/-- The first byte fetched is the byte the bus reads at PC. -/
theorem fetchBytes_head (s : State) : ∃ bs, (fetchBytes s).1 = busByte s.cpu.pc s :: bs := ⟨_, rfl⟩

/-- Bytes that stand at `a` and after, none of them a draw and none with a read effect, are read as they stand, and nothing changes. -/
theorem readBytes_eq (bs : List Byte) (a : Addr) (s : State)
    (h : ∀ k b, bs[k]? = some b → busByte (a + BitVec.ofNat 16 k) s = b ∧ afterRead (a + BitVec.ofNat 16 k) s = s) :
    readBytes bs.length a s = (bs, s) := by
  induction bs generalizing a with
  | nil => rfl
  | cons b bs ih =>
    have h0 := h 0 b rfl
    simp only [BitVec.add_zero] at h0
    have hr := ih (a + 1#16) fun k c hk => by
      have := h (k + 1) c (by simpa using hk)
      rwa [show a + 1#16 + BitVec.ofNat 16 k = a + BitVec.ofNat 16 (k + 1) by
        rw [Nat.add_comm, BitVec.ofNat_add, BitVec.add_assoc]]
    simp only [List.length_cons, readBytes, memRead, h0.1, h0.2, hr]

end Sys2Proof.Machine
end

