-- ==== Sys2Proof/Laws/Flags.lean ====
section
/-! SUPPORT. The bits of a byte as numbers, for the flag computations of Flags.lean. -/

namespace Sys2Proof.Machine

theorem getLsbD_seven (b : Byte) : b.getLsbD 7 = decide (128 ≤ b.toNat) := by
  have := BitVec.msb_eq_decide b
  rw [BitVec.msb_eq_getLsbD_last] at this
  simpa using this

theorem getLsbD_eq_decide (b : Byte) (k : Nat) : b.getLsbD k = decide (b.toNat / 2 ^ k % 2 = 1) := by
  simp [BitVec.getLsbD, Nat.testBit_eq_decide_div_mod_eq]

theorem byte_toInt (b : Byte) : b.toInt = if b.toNat < 128 then (b.toNat : Int) else b.toNat - 256 := by
  rw [BitVec.toInt_eq_toNat_cond]
  have := b.isLt
  split <;> split <;> omega

theorem bit01_eq (c : Bool) : bit01 c = c.toNat := by cases c <;> rfl

theorem not_toNat (m : Byte) : (~~~m).toNat = 255 - m.toNat := by simp [BitVec.toNat_not]

theorem not_toInt (m : Byte) : (~~~m).toInt = -1 - m.toInt := by
  rw [byte_toInt, byte_toInt, not_toNat]
  have := m.isLt
  split <;> split <;> omega

theorem and_lowNibble (a : Byte) : (a &&& 0x0F#8).toNat = a.toNat % 16 := by
  rw [BitVec.toNat_and]
  exact Nat.and_two_pow_sub_one_eq_mod _ 4

theorem and_highNibble (a : Byte) : (a &&& 0xF0#8).toNat = 16 * (a.toNat / 16) := by
  have h : (a &&& 0xF0#8) = a - (a &&& 0x0F#8) := by
    have hs : (a &&& 0xF0#8) + (a &&& 0x0F#8) = a := by
      rw [BitVec.add_eq_or_of_and_eq_zero, ← BitVec.and_or_distrib_left]
      · have : (0xF0#8 ||| 0x0F#8) = BitVec.allOnes 8 := by decide
        rw [this, BitVec.and_allOnes]
      · rw [BitVec.and_assoc, ← BitVec.and_assoc 0xF0#8, BitVec.and_comm 0xF0#8 a, BitVec.and_assoc a]
        have : (0xF0#8 &&& 0x0F#8) = 0#8 := by decide
        rw [this]
        simp
    rw [eq_comm, sub_eq_iff_eq_add]
    exact hs.symm
  rw [h, BitVec.toNat_sub, and_lowNibble]
  have := a.isLt
  omega

end Sys2Proof.Machine
end

