-- ==== Sys2Proof/Laws/Invariant.lean ====
section
/-! SUPPORT. The parts of the invariant, kept by every register write and tick of the chips, by every bus access, and by notification. -/

namespace Sys2Proof.Machine

/-! ### The timer chips -/

theorem Cia.inv_iff (id : CiaId) (c : Cia) :
    c.inv id = true ↔
      c.id = id ∧ c.cra.getLsbD 4 = false ∧ c.crb.getLsbD 4 = false ∧ c.icrFlags &&& 0b11100#5 = 0#5 := by
  simp [Cia.inv, and_assoc]

theorem Cia.inv_clearFlags {id : CiaId} {c : Cia} (h : c.inv id = true) : Cia.inv id { c with icrFlags := 0#5 } = true := by
  rw [Cia.inv_iff] at h ⊢
  exact ⟨h.1, h.2.1, h.2.2.1, by simp⟩

theorem Cia.inv_regWrite {id : CiaId} {c : Cia} (h : c.inv id = true) (i : BitVec 4) (v : Byte) :
    (c.regWrite i v).inv id = true := by
  rw [Cia.inv_iff] at h ⊢
  unfold Cia.regWrite
  split <;> first | exact h | exact ⟨h.1, by simp, h.2.2⟩ | exact ⟨h.1, h.2.1, by simp, h.2.2.2⟩

theorem flagsA_inv {f : BitVec 5} (h : f &&& 0b11100#5 = 0#5) : (f ||| 1#5) &&& 0b11100#5 = 0#5 := by
  revert f; decide

theorem flagsB_inv {f : BitVec 5} (h : f &&& 0b11100#5 = 0#5) : (f ||| 2#5) &&& 0b11100#5 = 0#5 := by
  revert f; decide

theorem stopped_bit4 {b : Byte} (h : b.getLsbD 4 = false) (x : Bool) : (if x then b &&& 0xFE#8 else b).getLsbD 4 = false := by
  cases x
  · exact h
  · simp only [if_true, BitVec.getLsbD_and, h, Bool.false_and]

theorem Cia.inv_tickA {id : CiaId} {c : Cia} (h : c.inv id = true) : c.tickA.inv id = true := by
  unfold Cia.tickA
  split
  · rw [Cia.inv_iff] at h ⊢
    exact ⟨h.1, stopped_bit4 h.2.1 _, h.2.2.1, flagsA_inv h.2.2.2⟩
  · split <;> exact h

theorem Cia.inv_tickB {id : CiaId} {c : Cia} (h : c.inv id = true) (u : Bool) : (c.tickB u).inv id = true := by
  unfold Cia.tickB
  split
  · split
    · rw [Cia.inv_iff] at h ⊢
      exact ⟨h.1, h.2.1, stopped_bit4 h.2.2.1 _, flagsB_inv h.2.2.2⟩
    · exact h
  · exact h

theorem Cia.inv_tick {id : CiaId} {c : Cia} (h : c.inv id = true) : c.tick.inv id = true := Cia.inv_tickB (Cia.inv_tickA h) _

/-! ### The video chip -/

theorem Vic.reg_setReg_same {i : Nat} (hi : i < 47) (b : Byte) (v : Vic) : (v.setReg i b).reg i = b := by
  simp [Vic.reg, Vic.setReg, hi]

theorem Vic.reg_setReg_other {i j : Nat} (h : j ≠ i) (b : Byte) (v : Vic) : (v.setReg i b).reg j = v.reg j := by
  simp [Vic.reg, Vic.setReg, Ne.symm h]

theorem Vic.inv_iff (g : Geometry) (v : Vic) :
    v.inv g = true ↔
      v.rasterLine < g.linesPerFrame ∧ v.rasterCycle < g.cyclesPerLine ∧ (∀ i ∈ vicUnstored, v.reg i = 0#8) ∧
        (v.reg 0x11).getLsbD 7 = false ∧
        v.irqFlags &&& 0b1110#4 = 0#4 := by
  simp [Vic.inv, and_assoc]

theorem Vic.inv_setReg {g : Geometry} {v : Vic} (h : v.inv g = true) {i : Nat} (hi : i ∉ vicUnstored) {b : Byte}
    (hb : i = 0x11 → b.getLsbD 7 = false) :
    (v.setReg i b).inv g = true := by
  rw [Vic.inv_iff] at h ⊢
  refine ⟨h.1, h.2.1, fun j hj => ?_, ?_, h.2.2.2.2⟩
  · rw [Vic.reg_setReg_other (fun e : j = i => hi (e ▸ hj))]
    exact h.2.2.1 j hj
  · by_cases e : i = 0x11
    · subst e
      rw [Vic.reg_setReg_same (by decide)]
      exact hb rfl
    · rw [Vic.reg_setReg_other (Ne.symm e)]
      exact h.2.2.2.1

theorem ackFlags_inv {f : BitVec 4} (h : f &&& 0b1110#4 = 0#4) (b : BitVec 4) : (f &&& ~~~b) &&& 0b1110#4 = 0#4 := by
  revert f b; decide

theorem raiseFlags_inv {f : BitVec 4} (h : f &&& 0b1110#4 = 0#4) : (f ||| 1#4) &&& 0b1110#4 = 0#4 := by
  revert f; decide

theorem Vic.inv_regWrite {g : Geometry} {v : Vic} (h : v.inv g = true) (i : BitVec 6) (b : Byte) : (v.regWrite i b).inv g = true := by
  simp only [Vic.regWrite]
  split
  · exact Vic.inv_setReg h (i := 0x11) (by decide) fun _ => by simp
  split
  · exact h
  split
  · exact h
  split
  · rw [Vic.inv_iff] at h ⊢
    exact ⟨h.1, h.2.1, h.2.2.1, h.2.2.2.1, ackFlags_inv h.2.2.2.2 _⟩
  split
  · exact h
  split
  · exact h
  · refine Vic.inv_setReg h ?_ (by omega)
    simp only [vicUnstored, List.mem_cons, List.not_mem_nil, or_false]
    omega

theorem Vic.inv_lineStart {g : Geometry} {v : Vic} (h : v.inv g = true) : v.lineStart.inv g = true := by
  rw [Vic.inv_iff] at h ⊢
  refine ⟨h.1, h.2.1, h.2.2.1, h.2.2.2.1, ?_⟩
  simp only [Vic.lineStart]
  split
  · exact raiseFlags_inv h.2.2.2.2
  · exact h.2.2.2.2

theorem Vic.inv_nextLine {g : Geometry} {v : Vic} (h : v.inv g = true) : (v.nextLine g).inv g = true := by
  rw [Vic.inv_iff] at h
  unfold Vic.nextLine
  split
  · rw [Vic.inv_iff]
    exact ⟨by have := h.1; simp only []; omega, by have := h.2.1; simp only []; omega, h.2.2⟩
  · rename_i hl
    rw [Vic.inv_iff]
    exact ⟨by have := h.1; simp only []; omega, by have := h.2.1; simp only []; omega, h.2.2⟩

theorem Vic.inv_tick {g : Geometry} {v : Vic} (h : v.inv g = true) : (v.tick g).inv g = true := by
  unfold Vic.tick
  split
  · exact Vic.inv_lineStart (Vic.inv_nextLine h)
  · rename_i hc
    rw [Vic.inv_iff] at h ⊢
    exact ⟨h.1, by have := h.2.1; simp only []; omega, h.2.2⟩

/-! ### The bus and the four parts together -/

theorem Bus.inv_setRam {b : Bus} (h : b.inv = true) (a : Addr) (v : Byte) :
    Bus.inv { b with ram := Memory.put a.toNat v b.ram } = true := by
  simp only [Bus.inv, Bool.and_eq_true] at h ⊢
  exact ⟨⟨wf_put v a.isLt h.1.1, h.1.2⟩, h.2⟩

theorem Bus.inv_setColorRam {b : Bus} (h : b.inv = true) (i : BitVec 10) (v : Byte) :
    Bus.inv { b with colorRam := Memory.put i.toNat v b.colorRam } = true := by
  simp only [Bus.inv, Bool.and_eq_true] at h ⊢
  exact ⟨⟨h.1.1, wf_put v i.isLt h.1.2⟩, h.2⟩

/-- The bus and the chips are in a good state. -/
def devicesInv (s : State) : Prop :=
  s.bus.inv = true ∧ s.cia1.inv .cia1 = true ∧ s.cia2.inv .cia2 = true ∧ s.vic.inv s.config.geometry = true

/-- Bus accesses and register updates keep the devices in a good state. -/
theorem closed_devicesInv : Closed devicesInv where
  read a s h := by
    rcases afterRead_cases a s with ⟨_, _, e⟩ | ⟨_, _, _, _, _, e⟩ | ⟨_, _, _, _, _, e⟩ | ⟨_, e⟩ <;> rw [e]
    · exact h
    · exact ⟨h.1, Cia.inv_clearFlags h.2.1, h.2.2⟩
    · exact ⟨h.1, h.2.1, Cia.inv_clearFlags h.2.2.1, h.2.2.2⟩
    · exact h
  write a v s h := by
    rcases memWrite_cases a v s with ⟨_, e⟩ | e | ⟨i, _, _, e⟩ | ⟨i, _, _, e⟩ | ⟨i, _, _, e⟩ | ⟨i, _, _, e⟩ | e <;> rw [e]
    · exact h
    · exact ⟨Bus.inv_setRam h.1 a v, h.2⟩
    · exact ⟨h.1, h.2.1, h.2.2.1, Vic.inv_regWrite h.2.2.2 i v⟩
    · exact ⟨Bus.inv_setColorRam h.1 i v, h.2⟩
    · exact ⟨h.1, Cia.inv_regWrite h.2.1 i v, h.2.2⟩
    · exact ⟨h.1, h.2.1, Cia.inv_regWrite h.2.2.1 i v, h.2.2.2⟩
    · exact h
  cpu _ _ h := h
  reported _ _ h := h

theorem devicesInv_sampleNmi {s : State} (h : devicesInv s) : devicesInv (sampleNmi s) := h

theorem devicesInv_notify {s : State} (n : Nat) (h : devicesInv s) : devicesInv (notify n s) := by
  induction n generalizing s with
  | zero => exact h
  | succ n ih =>
    refine ih ?_
    rw [notifyCycle, tickAll_eq]
    exact ⟨h.1, Cia.inv_tick h.2.1, Cia.inv_tick h.2.2.1, Vic.inv_tick h.2.2.2⟩

theorem devicesInv_interruptEntry (k : InterruptKind) {s : State} (h : devicesInv s) : devicesInv (interruptEntry k s) :=
  devicesInv_notify 7 (closed_devicesInv.takeException h)

theorem devicesInv_poll {s : State} (h : devicesInv s) : devicesInv (poll s) := by
  rcases poll_cases s with ⟨_, e⟩ | ⟨_, _, _, e⟩ | ⟨_, _, e⟩ <;> rw [e]
  · exact devicesInv_interruptEntry _ h
  · exact devicesInv_interruptEntry _ h
  · exact h

end Sys2Proof.Machine
end

