-- ==== Sys2Proof/Laws/PerInstr.lean ====
section
/-! SUPPORT. Statements for all instructions, one lemma for each constructor of `Instr`. -/

namespace Sys2Proof.Laws.EncodedForm

/-- The mnemonic has the mode in the opcode table, and the encoding has the length of the mode (R141, R142, R144). -/
def Statement (i : Instr) : Prop := formLegal i.mnemonic i.mode = true ∧ (encode i).length = i.mode.length

theorem ldaIndx (z : Byte) : Statement (.ldaIndx z) := ⟨rfl, rfl⟩

theorem ldaZp (z : Byte) : Statement (.ldaZp z) := ⟨rfl, rfl⟩

theorem ldaImm (v : Byte) : Statement (.ldaImm v) := ⟨rfl, rfl⟩

theorem ldaAbs (a : Addr) : Statement (.ldaAbs a) := ⟨rfl, rfl⟩

theorem ldaIndy (z : Byte) : Statement (.ldaIndy z) := ⟨rfl, rfl⟩

theorem ldaZpx (z : Byte) : Statement (.ldaZpx z) := ⟨rfl, rfl⟩

theorem ldaAbsy (a : Addr) : Statement (.ldaAbsy a) := ⟨rfl, rfl⟩

theorem ldaAbsx (a : Addr) : Statement (.ldaAbsx a) := ⟨rfl, rfl⟩

theorem ldxImm (v : Byte) : Statement (.ldxImm v) := ⟨rfl, rfl⟩

theorem ldxZp (z : Byte) : Statement (.ldxZp z) := ⟨rfl, rfl⟩

theorem ldxAbs (a : Addr) : Statement (.ldxAbs a) := ⟨rfl, rfl⟩

theorem ldxZpy (z : Byte) : Statement (.ldxZpy z) := ⟨rfl, rfl⟩

theorem ldxAbsy (a : Addr) : Statement (.ldxAbsy a) := ⟨rfl, rfl⟩

theorem ldyImm (v : Byte) : Statement (.ldyImm v) := ⟨rfl, rfl⟩

theorem ldyZp (z : Byte) : Statement (.ldyZp z) := ⟨rfl, rfl⟩

theorem ldyAbs (a : Addr) : Statement (.ldyAbs a) := ⟨rfl, rfl⟩

theorem ldyZpx (z : Byte) : Statement (.ldyZpx z) := ⟨rfl, rfl⟩

theorem ldyAbsx (a : Addr) : Statement (.ldyAbsx a) := ⟨rfl, rfl⟩

theorem staIndx (z : Byte) : Statement (.staIndx z) := ⟨rfl, rfl⟩

theorem staZp (z : Byte) : Statement (.staZp z) := ⟨rfl, rfl⟩

theorem staAbs (a : Addr) : Statement (.staAbs a) := ⟨rfl, rfl⟩

theorem staIndy (z : Byte) : Statement (.staIndy z) := ⟨rfl, rfl⟩

theorem staZpx (z : Byte) : Statement (.staZpx z) := ⟨rfl, rfl⟩

theorem staAbsy (a : Addr) : Statement (.staAbsy a) := ⟨rfl, rfl⟩

theorem staAbsx (a : Addr) : Statement (.staAbsx a) := ⟨rfl, rfl⟩

theorem stxZp (z : Byte) : Statement (.stxZp z) := ⟨rfl, rfl⟩

theorem stxAbs (a : Addr) : Statement (.stxAbs a) := ⟨rfl, rfl⟩

theorem stxZpy (z : Byte) : Statement (.stxZpy z) := ⟨rfl, rfl⟩

theorem styZp (z : Byte) : Statement (.styZp z) := ⟨rfl, rfl⟩

theorem styAbs (a : Addr) : Statement (.styAbs a) := ⟨rfl, rfl⟩

theorem styZpx (z : Byte) : Statement (.styZpx z) := ⟨rfl, rfl⟩

theorem tax : Statement .tax := ⟨rfl, rfl⟩

theorem tay : Statement .tay := ⟨rfl, rfl⟩

theorem tsx : Statement .tsx := ⟨rfl, rfl⟩

theorem txa : Statement .txa := ⟨rfl, rfl⟩

theorem txs : Statement .txs := ⟨rfl, rfl⟩

theorem tya : Statement .tya := ⟨rfl, rfl⟩

theorem pha : Statement .pha := ⟨rfl, rfl⟩

theorem php : Statement .php := ⟨rfl, rfl⟩

theorem pla : Statement .pla := ⟨rfl, rfl⟩

theorem plp : Statement .plp := ⟨rfl, rfl⟩

theorem adcIndx (z : Byte) : Statement (.adcIndx z) := ⟨rfl, rfl⟩

theorem adcZp (z : Byte) : Statement (.adcZp z) := ⟨rfl, rfl⟩

theorem adcImm (v : Byte) : Statement (.adcImm v) := ⟨rfl, rfl⟩

theorem adcAbs (a : Addr) : Statement (.adcAbs a) := ⟨rfl, rfl⟩

theorem adcIndy (z : Byte) : Statement (.adcIndy z) := ⟨rfl, rfl⟩

theorem adcZpx (z : Byte) : Statement (.adcZpx z) := ⟨rfl, rfl⟩

theorem adcAbsy (a : Addr) : Statement (.adcAbsy a) := ⟨rfl, rfl⟩

theorem adcAbsx (a : Addr) : Statement (.adcAbsx a) := ⟨rfl, rfl⟩

theorem sbcIndx (z : Byte) : Statement (.sbcIndx z) := ⟨rfl, rfl⟩

theorem sbcZp (z : Byte) : Statement (.sbcZp z) := ⟨rfl, rfl⟩

theorem sbcImm (v : Byte) : Statement (.sbcImm v) := ⟨rfl, rfl⟩

theorem sbcAbs (a : Addr) : Statement (.sbcAbs a) := ⟨rfl, rfl⟩

theorem sbcIndy (z : Byte) : Statement (.sbcIndy z) := ⟨rfl, rfl⟩

theorem sbcZpx (z : Byte) : Statement (.sbcZpx z) := ⟨rfl, rfl⟩

theorem sbcAbsy (a : Addr) : Statement (.sbcAbsy a) := ⟨rfl, rfl⟩

theorem sbcAbsx (a : Addr) : Statement (.sbcAbsx a) := ⟨rfl, rfl⟩

theorem cmpIndx (z : Byte) : Statement (.cmpIndx z) := ⟨rfl, rfl⟩

theorem cmpZp (z : Byte) : Statement (.cmpZp z) := ⟨rfl, rfl⟩

theorem cmpImm (v : Byte) : Statement (.cmpImm v) := ⟨rfl, rfl⟩

theorem cmpAbs (a : Addr) : Statement (.cmpAbs a) := ⟨rfl, rfl⟩

theorem cmpIndy (z : Byte) : Statement (.cmpIndy z) := ⟨rfl, rfl⟩

theorem cmpZpx (z : Byte) : Statement (.cmpZpx z) := ⟨rfl, rfl⟩

theorem cmpAbsy (a : Addr) : Statement (.cmpAbsy a) := ⟨rfl, rfl⟩

theorem cmpAbsx (a : Addr) : Statement (.cmpAbsx a) := ⟨rfl, rfl⟩

theorem cpxImm (v : Byte) : Statement (.cpxImm v) := ⟨rfl, rfl⟩

theorem cpxZp (z : Byte) : Statement (.cpxZp z) := ⟨rfl, rfl⟩

theorem cpxAbs (a : Addr) : Statement (.cpxAbs a) := ⟨rfl, rfl⟩

theorem cpyImm (v : Byte) : Statement (.cpyImm v) := ⟨rfl, rfl⟩

theorem cpyZp (z : Byte) : Statement (.cpyZp z) := ⟨rfl, rfl⟩

theorem cpyAbs (a : Addr) : Statement (.cpyAbs a) := ⟨rfl, rfl⟩

theorem incZp (z : Byte) : Statement (.incZp z) := ⟨rfl, rfl⟩

theorem incAbs (a : Addr) : Statement (.incAbs a) := ⟨rfl, rfl⟩

theorem incZpx (z : Byte) : Statement (.incZpx z) := ⟨rfl, rfl⟩

theorem incAbsx (a : Addr) : Statement (.incAbsx a) := ⟨rfl, rfl⟩

theorem decZp (z : Byte) : Statement (.decZp z) := ⟨rfl, rfl⟩

theorem decAbs (a : Addr) : Statement (.decAbs a) := ⟨rfl, rfl⟩

theorem decZpx (z : Byte) : Statement (.decZpx z) := ⟨rfl, rfl⟩

theorem decAbsx (a : Addr) : Statement (.decAbsx a) := ⟨rfl, rfl⟩

theorem inx : Statement .inx := ⟨rfl, rfl⟩

theorem iny : Statement .iny := ⟨rfl, rfl⟩

theorem dex : Statement .dex := ⟨rfl, rfl⟩

theorem dey : Statement .dey := ⟨rfl, rfl⟩

theorem andIndx (z : Byte) : Statement (.andIndx z) := ⟨rfl, rfl⟩

theorem andZp (z : Byte) : Statement (.andZp z) := ⟨rfl, rfl⟩

theorem andImm (v : Byte) : Statement (.andImm v) := ⟨rfl, rfl⟩

theorem andAbs (a : Addr) : Statement (.andAbs a) := ⟨rfl, rfl⟩

theorem andIndy (z : Byte) : Statement (.andIndy z) := ⟨rfl, rfl⟩

theorem andZpx (z : Byte) : Statement (.andZpx z) := ⟨rfl, rfl⟩

theorem andAbsy (a : Addr) : Statement (.andAbsy a) := ⟨rfl, rfl⟩

theorem andAbsx (a : Addr) : Statement (.andAbsx a) := ⟨rfl, rfl⟩

theorem oraIndx (z : Byte) : Statement (.oraIndx z) := ⟨rfl, rfl⟩

theorem oraZp (z : Byte) : Statement (.oraZp z) := ⟨rfl, rfl⟩

theorem oraImm (v : Byte) : Statement (.oraImm v) := ⟨rfl, rfl⟩

theorem oraAbs (a : Addr) : Statement (.oraAbs a) := ⟨rfl, rfl⟩

theorem oraIndy (z : Byte) : Statement (.oraIndy z) := ⟨rfl, rfl⟩

theorem oraZpx (z : Byte) : Statement (.oraZpx z) := ⟨rfl, rfl⟩

theorem oraAbsy (a : Addr) : Statement (.oraAbsy a) := ⟨rfl, rfl⟩

theorem oraAbsx (a : Addr) : Statement (.oraAbsx a) := ⟨rfl, rfl⟩

theorem eorIndx (z : Byte) : Statement (.eorIndx z) := ⟨rfl, rfl⟩

theorem eorZp (z : Byte) : Statement (.eorZp z) := ⟨rfl, rfl⟩

theorem eorImm (v : Byte) : Statement (.eorImm v) := ⟨rfl, rfl⟩

theorem eorAbs (a : Addr) : Statement (.eorAbs a) := ⟨rfl, rfl⟩

theorem eorIndy (z : Byte) : Statement (.eorIndy z) := ⟨rfl, rfl⟩

theorem eorZpx (z : Byte) : Statement (.eorZpx z) := ⟨rfl, rfl⟩

theorem eorAbsy (a : Addr) : Statement (.eorAbsy a) := ⟨rfl, rfl⟩

theorem eorAbsx (a : Addr) : Statement (.eorAbsx a) := ⟨rfl, rfl⟩

theorem bitZp (z : Byte) : Statement (.bitZp z) := ⟨rfl, rfl⟩

theorem bitAbs (a : Addr) : Statement (.bitAbs a) := ⟨rfl, rfl⟩

theorem aslZp (z : Byte) : Statement (.aslZp z) := ⟨rfl, rfl⟩

theorem aslAcc : Statement .aslAcc := ⟨rfl, rfl⟩

theorem aslAbs (a : Addr) : Statement (.aslAbs a) := ⟨rfl, rfl⟩

theorem aslZpx (z : Byte) : Statement (.aslZpx z) := ⟨rfl, rfl⟩

theorem aslAbsx (a : Addr) : Statement (.aslAbsx a) := ⟨rfl, rfl⟩

theorem lsrZp (z : Byte) : Statement (.lsrZp z) := ⟨rfl, rfl⟩

theorem lsrAcc : Statement .lsrAcc := ⟨rfl, rfl⟩

theorem lsrAbs (a : Addr) : Statement (.lsrAbs a) := ⟨rfl, rfl⟩

theorem lsrZpx (z : Byte) : Statement (.lsrZpx z) := ⟨rfl, rfl⟩

theorem lsrAbsx (a : Addr) : Statement (.lsrAbsx a) := ⟨rfl, rfl⟩

theorem rolZp (z : Byte) : Statement (.rolZp z) := ⟨rfl, rfl⟩

theorem rolAcc : Statement .rolAcc := ⟨rfl, rfl⟩

theorem rolAbs (a : Addr) : Statement (.rolAbs a) := ⟨rfl, rfl⟩

theorem rolZpx (z : Byte) : Statement (.rolZpx z) := ⟨rfl, rfl⟩

theorem rolAbsx (a : Addr) : Statement (.rolAbsx a) := ⟨rfl, rfl⟩

theorem rorZp (z : Byte) : Statement (.rorZp z) := ⟨rfl, rfl⟩

theorem rorAcc : Statement .rorAcc := ⟨rfl, rfl⟩

theorem rorAbs (a : Addr) : Statement (.rorAbs a) := ⟨rfl, rfl⟩

theorem rorZpx (z : Byte) : Statement (.rorZpx z) := ⟨rfl, rfl⟩

theorem rorAbsx (a : Addr) : Statement (.rorAbsx a) := ⟨rfl, rfl⟩

theorem jmpAbs (a : Addr) : Statement (.jmpAbs a) := ⟨rfl, rfl⟩

theorem jmpInd (a : Addr) : Statement (.jmpInd a) := ⟨rfl, rfl⟩

theorem jsr (a : Addr) : Statement (.jsr a) := ⟨rfl, rfl⟩

theorem rts : Statement .rts := ⟨rfl, rfl⟩

theorem rti : Statement .rti := ⟨rfl, rfl⟩

theorem brk : Statement .brk := ⟨rfl, rfl⟩

theorem bcc (off : Byte) : Statement (.bcc off) := ⟨rfl, rfl⟩

theorem bcs (off : Byte) : Statement (.bcs off) := ⟨rfl, rfl⟩

theorem beq (off : Byte) : Statement (.beq off) := ⟨rfl, rfl⟩

theorem bmi (off : Byte) : Statement (.bmi off) := ⟨rfl, rfl⟩

theorem bne (off : Byte) : Statement (.bne off) := ⟨rfl, rfl⟩

theorem bpl (off : Byte) : Statement (.bpl off) := ⟨rfl, rfl⟩

theorem bvc (off : Byte) : Statement (.bvc off) := ⟨rfl, rfl⟩

theorem bvs (off : Byte) : Statement (.bvs off) := ⟨rfl, rfl⟩

theorem clc : Statement .clc := ⟨rfl, rfl⟩

theorem cld : Statement .cld := ⟨rfl, rfl⟩

theorem cli : Statement .cli := ⟨rfl, rfl⟩

theorem clv : Statement .clv := ⟨rfl, rfl⟩

theorem sec : Statement .sec := ⟨rfl, rfl⟩

theorem sed : Statement .sed := ⟨rfl, rfl⟩

theorem sei : Statement .sei := ⟨rfl, rfl⟩

theorem nop : Statement .nop := ⟨rfl, rfl⟩

end Sys2Proof.Laws.EncodedForm
end

