-- ==== Sys2Proof/Tests/Slice0.lean ====
section
/-! SUPPORT. The model's own tests. Decoding: every opcode, written out from the Encoding lines of the spec's rules. Well-formedness: a line
that each check refuses. Execution: one step each, with results taken from the Example lines of the rules and from
spec/95_test_vectors.md. Witnesses: for each statement with hypotheses, a state and operands that meet them. -/

namespace Sys2Proof.Tests

open Sys2Proof.Machine Sys2Proof.Claims

/-! ### Helpers -/

/-- The bytes decode to the instruction, with nothing left over. -/
def decodesTo (bs : List Byte) (i : Instr) : Bool :=
  match decodeBytes bs with
  | .ok (j, []) => i == j
  | _ => false

/-- A one-byte word. -/
def d1 (op : Byte) (i : Instr) : Bool := decodesTo [op] i

/-- A two-byte word with the operand 0x9C. -/
def d2 (op : Byte) (f : Byte → Instr) : Bool := decodesTo [op, 0x9C#8] (f 0x9C#8)

/-- A three-byte word with the operand 0x12F4, low byte first. -/
def d3 (op : Byte) (f : Addr → Instr) : Bool := decodesTo [op, 0xF4#8, 0x12#8] (f 0x12F4#16)

/-- The test state of spec/95_test_vectors.md: the reset state with PC = 0xC000, A = X = Y = 0, S = 0xFD, only I set, and RAM as given. -/
def start (ram : Memory) : State :=
  { State.reset with
    cpu := { a := 0, x := 0, y := 0, sp := 0xFD, pc := 0xC000, p := ⟨false, false, false, true, false, false⟩ }
    bus := { State.reset.bus with ram := ram } }

/-- `exec` answers a next state that passes the check. -/
def runs (i : Instr) (s : State) (check : State → Bool) : Bool :=
  match exec i s with
  | .next t => check t
  | .fault _ => false
  | .refused _ => false

/-- `step` answers a next state that passes the check. -/
def steps (s : State) (check : State → Bool) : Bool :=
  match step s with
  | .next t => check t
  | .fault _ => false
  | .refused _ => false

/-- The six flags N V D I Z C. -/
def flagsAre (n v d i z c : Bool) (t : State) : Bool := t.cpu.p == ⟨n, v, d, i, z, c⟩

def ramAt (a : Addr) (t : State) : Byte := ramByte a t.bus.ram

/-! ### Decoding -/

/-- The Encoding lines of spec/41_load_store.md. -/
theorem test_decode_loads_and_stores_1 :
    (d2 0xA9 .ldaImm && d2 0xA5 .ldaZp && d2 0xB5 .ldaZpx && d3 0xAD .ldaAbs && d3 0xBD .ldaAbsx &&
    d3 0xB9 .ldaAbsy && d2 0xA1 .ldaIndx && d2 0xB1 .ldaIndy && d2 0xA2 .ldxImm && d2 0xA6 .ldxZp &&
    d2 0xB6 .ldxZpy && d3 0xAE .ldxAbs && d3 0xBE .ldxAbsy && d2 0xA0 .ldyImm && d2 0xA4 .ldyZp &&
    d2 0xB4 .ldyZpx && d3 0xAC .ldyAbs && d3 0xBC .ldyAbsx && d2 0x85 .staZp && d2 0x95 .staZpx &&
    d3 0x8D .staAbs && d3 0x9D .staAbsx && d3 0x99 .staAbsy && d2 0x81 .staIndx && d2 0x91 .staIndy &&
    d2 0x86 .stxZp && d2 0x96 .stxZpy && d3 0x8E .stxAbs) = true := by decide

/-- The Encoding lines of spec/41_load_store.md. -/
theorem test_decode_loads_and_stores_2 :
    (d2 0x84 .styZp && d2 0x94 .styZpx && d3 0x8C .styAbs) = true := by decide

/-- The Encoding lines of spec/42_transfer_stack.md. -/
theorem test_decode_transfers_and_stack :
    (d1 0xAA .tax && d1 0xA8 .tay && d1 0xBA .tsx && d1 0x8A .txa && d1 0x9A .txs &&
    d1 0x98 .tya && d1 0x48 .pha && d1 0x08 .php && d1 0x68 .pla && d1 0x28 .plp) = true := by decide

/-- The Encoding lines of spec/43_arithmetic.md. -/
theorem test_decode_arithmetic_1 :
    (d2 0x69 .adcImm && d2 0x65 .adcZp && d2 0x75 .adcZpx && d3 0x6D .adcAbs && d3 0x7D .adcAbsx &&
    d3 0x79 .adcAbsy && d2 0x61 .adcIndx && d2 0x71 .adcIndy && d2 0xE9 .sbcImm && d2 0xE5 .sbcZp &&
    d2 0xF5 .sbcZpx && d3 0xED .sbcAbs && d3 0xFD .sbcAbsx && d3 0xF9 .sbcAbsy && d2 0xE1 .sbcIndx &&
    d2 0xF1 .sbcIndy && d2 0xC9 .cmpImm && d2 0xC5 .cmpZp && d2 0xD5 .cmpZpx && d3 0xCD .cmpAbs &&
    d3 0xDD .cmpAbsx && d3 0xD9 .cmpAbsy && d2 0xC1 .cmpIndx && d2 0xD1 .cmpIndy && d2 0xE0 .cpxImm &&
    d2 0xE4 .cpxZp && d3 0xEC .cpxAbs && d2 0xC0 .cpyImm) = true := by decide

/-- The Encoding lines of spec/43_arithmetic.md. -/
theorem test_decode_arithmetic_2 :
    (d2 0xC4 .cpyZp && d3 0xCC .cpyAbs && d2 0xE6 .incZp && d2 0xF6 .incZpx && d3 0xEE .incAbs &&
    d3 0xFE .incAbsx && d2 0xC6 .decZp && d2 0xD6 .decZpx && d3 0xCE .decAbs && d3 0xDE .decAbsx &&
    d1 0xE8 .inx && d1 0xC8 .iny && d1 0xCA .dex && d1 0x88 .dey) = true := by decide

/-- The Encoding lines of spec/44_logic_shift.md. -/
theorem test_decode_logic_and_shifts_1 :
    (d2 0x29 .andImm && d2 0x25 .andZp && d2 0x35 .andZpx && d3 0x2D .andAbs && d3 0x3D .andAbsx &&
    d3 0x39 .andAbsy && d2 0x21 .andIndx && d2 0x31 .andIndy && d2 0x09 .oraImm && d2 0x05 .oraZp &&
    d2 0x15 .oraZpx && d3 0x0D .oraAbs && d3 0x1D .oraAbsx && d3 0x19 .oraAbsy && d2 0x01 .oraIndx &&
    d2 0x11 .oraIndy && d2 0x49 .eorImm && d2 0x45 .eorZp && d2 0x55 .eorZpx && d3 0x4D .eorAbs &&
    d3 0x5D .eorAbsx && d3 0x59 .eorAbsy && d2 0x41 .eorIndx && d2 0x51 .eorIndy && d2 0x24 .bitZp &&
    d3 0x2C .bitAbs && d1 0x0A .aslAcc && d2 0x06 .aslZp) = true := by decide

/-- The Encoding lines of spec/44_logic_shift.md. -/
theorem test_decode_logic_and_shifts_2 :
    (d2 0x16 .aslZpx && d3 0x0E .aslAbs && d3 0x1E .aslAbsx && d1 0x4A .lsrAcc && d2 0x46 .lsrZp &&
    d2 0x56 .lsrZpx && d3 0x4E .lsrAbs && d3 0x5E .lsrAbsx && d1 0x2A .rolAcc && d2 0x26 .rolZp &&
    d2 0x36 .rolZpx && d3 0x2E .rolAbs && d3 0x3E .rolAbsx && d1 0x6A .rorAcc && d2 0x66 .rorZp &&
    d2 0x76 .rorZpx && d3 0x6E .rorAbs && d3 0x7E .rorAbsx) = true := by decide

/-- The Encoding lines of spec/45_control.md. -/
theorem test_decode_control :
    (d3 0x4C .jmpAbs && d3 0x6C .jmpInd && d3 0x20 .jsr && d1 0x60 .rts && d1 0x40 .rti &&
    d1 0x00 .brk && d2 0x90 .bcc && d2 0xB0 .bcs && d2 0xF0 .beq && d2 0x30 .bmi &&
    d2 0xD0 .bne && d2 0x10 .bpl && d2 0x50 .bvc && d2 0x70 .bvs) = true := by decide

/-- The Encoding lines of spec/46_flags_misc.md. -/
theorem test_decode_flags :
    (d1 0x18 .clc && d1 0xD8 .cld && d1 0x58 .cli && d1 0xB8 .clv && d1 0x38 .sec &&
    d1 0xF8 .sed && d1 0x78 .sei && d1 0xEA .nop) = true := by decide

/-- R145: rejected by name. R141: an operand that is not all there. -/
theorem test_decode_rejects :
    (match decodeBytes [0x02, 0x34, 0x12] with | .error (.illegalOpcode op) => op == 0x02 | _ => false) = true ∧
    (match decodeBytes [0x8D, 0x20] with | .error (.truncated op) => op == 0x8D | _ => false) = true ∧
    (match decodeBytes [] with | .error .noBytes => true | _ => false) = true := by decide

/-- Rows of opcode_table.json as words, the first byte in bits 7..0; an illegal byte has none. -/
theorem test_decode_table_words :
    decodeTableWord 16 0x00A9 = some (.ldaImm 0x00) ∧ decodeTableWord 24 0xFFFE4C = some (.jmpAbs 0xFFFE) ∧
      decodeTableWord 8 0xEA = some .nop ∧ decodeTableWord 8 0x1A = none := by decide

/-- A word placed by `withFetchWord` is the very next instruction: LDA #$80 (A9 80) from reset. -/
theorem test_fetch_word :
    steps (State.reset.withFetchWord 16 0x80A9) (fun t =>
      t.cpu.a == 0x80 && t.cpu.p.n && t.cpu.pc == 0x0202 && t.engine.cycles == 2) = true := by decide

/-! ### Well-formedness -/

/-- No such form: STA #, LDX with X, LDA with Y in the zero page, an indirect JSR (R144, R146). -/
theorem test_ill_formed_modes :
    formLegal .sta .imm = false ∧ formLegal .ldx .zpx = false ∧ formLegal .lda .zpy = false ∧ formLegal .jsr .ind = false := by decide

/-- Assembler lines that the form check refuses: STA #$12, LDX $12,X, INX $12, JMP ($12),Y (R147). -/
theorem test_ill_formed_lines :
    AsmLine.wellFormed 0xC000 ⟨.sta, .imm 0x12⟩ = false ∧ AsmLine.wellFormed 0xC000 ⟨.ldx, .shortX 0x12⟩ = false ∧
      AsmLine.wellFormed 0xC000 ⟨.inx, .short 0x12⟩ = false ∧ AsmLine.wellFormed 0xC000 ⟨.jmp, .indY 0x12⟩ = false := by decide

/-- Branches that the reach check refuses, one byte too far each way, and the last ones in reach (R147, R159). -/
theorem test_ill_formed_branches :
    AsmLine.wellFormed 0xC000 ⟨.bne, .label 0xC082⟩ = false ∧ AsmLine.wellFormed 0xC000 ⟨.bne, .label 0xBF81⟩ = false ∧
      AsmLine.wellFormed 0xC000 ⟨.bne, .label 0xC081⟩ = true ∧ AsmLine.wellFormed 0xC000 ⟨.bne, .label 0xBF82⟩ = true := by decide

/-- Program P1's `BNE loop` at 0xC008 assembles to D0 FB, and a refused line to nothing. -/
theorem test_assemble :
    assemble 0xC008 ⟨.bne, .label 0xC005⟩ = some (.bne 0xFB) ∧ assemble 0xC000 ⟨.sta, .imm 0x12⟩ = none := by decide

/-! ### Loads and stores -/

theorem test_lda_zero : runs (.ldaImm 0x00) { start [] with cpu.a := 0x12 } (fun t =>
    t.cpu.a == 0 && flagsAre false false false true true false t && t.aux.reported == 2) = true := by decide

theorem test_lda_icr : runs (.ldaAbs 0xDC0D) { start [] with cia1.icrFlags := 1, cia1.icrMask := 1 } (fun t =>
    t.cpu.a == 0x81 && t.cpu.p.n && t.cia1.icrFlags == 0 && !t.cia1.irq && t.aux.reported == 4) = true := by decide

theorem test_lda_page_cross : runs (.ldaIndy 0x20) { start [(0x20, 0xF8), (0x21, 0x03), (0x0408, 0x99)] with cpu.y := 0x10 } (fun t =>
    t.cpu.a == 0x99 && t.cpu.p.n && t.aux.reported == 6) = true := by decide

theorem test_ldx_wraps : runs (.ldxZpy 0xFF) { start [(0x0000, 0x42)] with cpu.y := 0x01 } (fun t =>
    t.cpu.x == 0x42 && t.aux.reported == 4) = true := by decide

theorem test_ldx_icr_masked : runs (.ldxAbs 0xDC0D) { start [] with cia1.icrFlags := 1 } (fun t =>
    t.cpu.x == 0x01 && t.cia1.icrFlags == 0) = true := by decide

theorem test_ldy : runs (.ldyAbs 0x0200) (start [(0x0200, 0x7F)]) (fun t =>
    t.cpu.y == 0x7F && flagsAre false false false true false false t && t.aux.reported == 4) = true := by decide

theorem test_sta_indexed : runs (.staAbsx 0x0001) { start [] with cpu.a := 0x01, cpu.x := 0xFF } (fun t =>
    ramAt 0x0100 t == 0x01 && t.aux.reported == 5 && t.cpu.pc == 0xC003) = true := by decide

theorem test_sta_latch : runs (.staZp 0x01) { start [(0x0001, 0x55)] with cpu.a := 0x36 } (fun t =>
    t.bus.bank.latch == 0x36 && ramAt 0x0001 t == 0x55 && resolve 0xA000 t.bus.bank == .ram) = true := by decide

theorem test_stx : runs (.stxZp 0x10) { start [] with cpu.x := 0x05 } (fun t => ramAt 0x0010 t == 0x05) = true := by decide

theorem test_sty_latch : runs (.styZpx 0x00) { start [] with cpu.y := 0x37, cpu.x := 0x01, bus.bank.latch := 0x34 } (fun t =>
    t.bus.bank.latch == 0x37 && t.aux.reported == 4) = true := by decide

/-! ### Transfers and the stack -/

theorem test_tax : runs .tax { start [] with cpu.a := 0x80 } (fun t => t.cpu.x == 0x80 && t.cpu.p.n && !t.cpu.p.z) = true := by decide

theorem test_tay : runs .tay { start [] with cpu.y := 0x12 } (fun t => t.cpu.y == 0 && t.cpu.p.z) = true := by decide

theorem test_tsx : runs .tsx { start [] with cpu.sp := 0xF0 } (fun t => t.cpu.x == 0xF0 && t.cpu.p.n) = true := by decide

theorem test_txa : runs .txa { start [] with cpu.x := 0x01 } (fun t =>
    t.cpu.a == 0x01 && !t.cpu.p.n && !t.cpu.p.z) = true := by decide

theorem test_txs_keeps_flags : runs .txs { start [] with cpu.p.n := true } (fun t =>
    t.cpu.sp == 0 && t.cpu.p.n && !t.cpu.p.z) = true := by decide

theorem test_tya : runs .tya { start [] with cpu.y := 0xFE } (fun t => t.cpu.a == 0xFE && t.cpu.p.n) = true := by decide

theorem test_pha_wraps : runs .pha { start [] with cpu.a := 0x44, cpu.sp := 0x00 } (fun t =>
    ramAt 0x0100 t == 0x44 && t.cpu.sp == 0xFF && t.aux.reported == 3) = true := by decide

theorem test_php : runs .php { start [] with cpu.p.c := true } (fun t =>
    ramAt 0x01FD t == 0x35 && t.cpu.sp == 0xFC) = true := by decide

theorem test_pla_wraps : runs .pla { start [(0x0100, 0x80)] with cpu.sp := 0xFF } (fun t =>
    t.cpu.a == 0x80 && t.cpu.p.n && t.cpu.sp == 0x00 && t.aux.reported == 4) = true := by decide

theorem test_plp_all : runs .plp { start [(0x01FD, 0xFF)] with cpu.sp := 0xFC } (fun t =>
    flagsAre true true true true true true t && t.cpu.sp == 0xFD) = true := by decide

theorem test_plp_none : runs .plp { start [(0x01FD, 0x30)] with cpu.sp := 0xFC } (fun t =>
    flagsAre false false false false false false t) = true := by decide

/-! ### Arithmetic: the tables of L2-4, as (A, operand, C in, A out, N, V, Z, C) -/

def aluRows (op : Byte → Instr) (d : Bool) (rows : List (Byte × Byte × Bool × Byte × Bool × Bool × Bool × Bool)) : Bool :=
  rows.all fun r =>
    match r with
    | (a, m, c, a', n, v, z, c') =>
      runs (op m) { start [] with cpu.a := a, cpu.p.d := d, cpu.p.c := c } fun t => t.cpu.a == a' && flagsAre n v d true z c' t

theorem test_adc_binary : aluRows .adcImm false (
  [(0x10, 0x22, false, 0x32, false, false, false, false), (0x7F, 0x01, false, 0x80, true, true, false, false),
   (0x80, 0x80, false, 0x00, false, true, true, true), (0xFF, 0x01, false, 0x00, false, false, true, true),
   (0x01, 0x01, true, 0x03, false, false, false, false)] ++
  [(0x50, 0x50, false, 0xA0, true, true, false, false), (0xD0, 0x90, false, 0x60, false, true, false, true),
   (0x00, 0x00, false, 0x00, false, false, true, false), (0xFF, 0xFF, true, 0xFF, true, false, false, true)]) = true := by decide

theorem test_sbc_binary : aluRows .sbcImm false (
  [(0x50, 0x10, true, 0x40, false, false, false, true), (0x00, 0x01, true, 0xFF, true, false, false, false),
   (0x80, 0x01, true, 0x7F, false, true, false, true), (0x7F, 0xFF, true, 0x80, true, true, false, false)] ++
  [(0x05, 0x03, false, 0x01, false, false, false, true), (0x05, 0x05, true, 0x00, false, false, true, true),
   (0x50, 0xB0, true, 0xA0, true, true, false, false), (0xFF, 0xFF, false, 0xFF, true, false, false, false)]) = true := by decide

theorem test_adc_decimal : aluRows .adcImm true (
  [(0x19, 0x28, false, 0x47, false, false, false, false), (0x09, 0x01, false, 0x10, false, false, false, false),
   (0x99, 0x01, false, 0x00, true, false, false, true), (0x58, 0x46, true, 0x05, true, true, false, true),
   (0x81, 0x92, false, 0x73, false, true, false, true)] ++
  [(0x79, 0x00, true, 0x80, true, true, false, false), (0x50, 0x50, false, 0x00, true, true, false, true),
   (0x99, 0x99, true, 0x99, false, true, false, true), (0x0F, 0x0F, false, 0x14, false, false, false, false)]) = true := by decide

theorem test_sbc_decimal : aluRows .sbcImm true (
  [(0x47, 0x28, true, 0x19, false, false, false, true), (0x40, 0x13, true, 0x27, false, false, false, true),
   (0x32, 0x02, false, 0x29, false, false, false, true), (0x00, 0x01, true, 0x99, true, false, false, false)] ++
  [(0x12, 0x21, true, 0x91, true, false, false, false), (0x21, 0x34, true, 0x87, true, false, false, false),
   (0x00, 0x00, false, 0x99, true, false, false, false)]) = true := by decide

theorem test_cmp_equal : runs (.cmpImm 0x40) { start [] with cpu.a := 0x40 } (fun t =>
    t.cpu.a == 0x40 && flagsAre false false false true true true t) = true := by decide

theorem test_cmp_below : runs (.cmpImm 0x80) (start []) (fun t => flagsAre true false false true false false t) = true := by decide

theorem test_cpx : runs (.cpxImm 0x06) { start [] with cpu.x := 0x05 } (fun t =>
    flagsAre true false false true false false t) = true := by decide

theorem test_cpy : runs (.cpyImm 0x00) { start [] with cpu.y := 0xFF } (fun t =>
    flagsAre true false false true false true t) = true := by decide

theorem test_inc_wraps : runs (.incZp 0x10) { start [(0x10, 0xFF)] with cpu.p.c := true, cpu.p.v := true } (fun t =>
    ramAt 0x0010 t == 0x00 && flagsAre false true false true true true t && t.aux.reported == 5) = true := by decide

/-- `INC $D019` does not acknowledge the raster source (R447). -/
theorem test_inc_raster : runs (.incAbs 0xD019) { start [] with vic.irqFlags := 1, vic.irqEnable := 1 } (fun t =>
    t.vic.irqFlags == 1 && t.vic.irq) = true := by decide

theorem test_dec_wraps : runs (.decAbs 0x0400) (start [(0x0400, 0x00)]) (fun t =>
    ramAt 0x0400 t == 0xFF && t.cpu.p.n && t.aux.reported == 6) = true := by decide

theorem test_inx_wraps : runs .inx { start [] with cpu.x := 0xFF } (fun t => t.cpu.x == 0 && t.cpu.p.z) = true := by decide

theorem test_iny : runs .iny (start []) (fun t => t.cpu.y == 1 && !t.cpu.p.n && !t.cpu.p.z) = true := by decide

theorem test_dex : runs .dex { start [] with cpu.x := 0x05 } (fun t => t.cpu.x == 0x04) = true := by decide

theorem test_dey_wraps : runs .dey (start []) (fun t => t.cpu.y == 0xFF && t.cpu.p.n) = true := by decide

/-! ### Logic and shifts -/

theorem test_and : runs (.andImm 0x3C) { start [] with cpu.a := 0xF0 } (fun t =>
    t.cpu.a == 0x30 && !t.cpu.p.n && !t.cpu.p.z) = true := by decide

theorem test_ora : runs (.oraImm 0x80) { start [] with cpu.a := 0x01 } (fun t => t.cpu.a == 0x81 && t.cpu.p.n) = true := by decide

theorem test_eor : runs (.eorImm 0xFF) { start [] with cpu.a := 0x5A } (fun t => t.cpu.a == 0xA5 && t.cpu.p.n) = true := by decide

theorem test_bit : runs (.bitZp 0x10) { start [(0x10, 0xC0)] with cpu.a := 0x01 } (fun t =>
    t.cpu.a == 0x01 && flagsAre true true false true true false t && t.aux.reported == 3) = true := by decide

theorem test_asl_carry : runs .aslAcc { start [] with cpu.a := 0x80 } (fun t =>
    t.cpu.a == 0 && flagsAre false false false true true true t) = true := by decide

theorem test_lsr_memory : runs (.lsrZp 0x20) (start [(0x20, 0x01)]) (fun t =>
    ramAt 0x0020 t == 0 && flagsAre false false false true true true t && t.aux.reported == 5) = true := by decide

theorem test_lsr_acc : runs .lsrAcc { start [] with cpu.a := 0xFF } (fun t =>
    t.cpu.a == 0x7F && t.cpu.p.c && !t.cpu.p.n) = true := by decide

theorem test_rol : runs .rolAcc { start [] with cpu.a := 0x40, cpu.p.c := true } (fun t =>
    t.cpu.a == 0x81 && !t.cpu.p.c && t.cpu.p.n) = true := by decide

theorem test_ror_memory : runs (.rorAbsx 0x0400) { start [(0x0401, 0x81)] with cpu.x := 0x01 } (fun t =>
    ramAt 0x0401 t == 0x40 && t.cpu.p.c && t.aux.reported == 7) = true := by decide

theorem test_ror_acc : runs .rorAcc { start [] with cpu.p.c := true } (fun t =>
    t.cpu.a == 0x80 && !t.cpu.p.c && t.cpu.p.n) = true := by decide

/-! ### Control transfer -/

theorem test_jmp : runs (.jmpAbs 0xC123) (start []) (fun t => t.cpu.pc == 0xC123 && t.aux.reported == 3) = true := by decide

theorem test_jmp_indirect_page : runs (.jmpInd 0x10FF) (start [(0x1000, 0x12), (0x10FF, 0x34), (0x1100, 0x56)]) (fun t =>
    t.cpu.pc == 0x1234 && t.aux.reported == 5) = true := by decide

theorem test_jsr : runs (.jsr 0xC100) (start []) (fun t =>
    ramAt 0x01FD t == 0xC0 && ramAt 0x01FC t == 0x02 && t.cpu.sp == 0xFB && t.cpu.pc == 0xC100 && t.aux.reported == 6) = true := by decide

theorem test_rts : runs .rts { start [(0x01FC, 0x02), (0x01FD, 0xC0)] with cpu.sp := 0xFB } (fun t =>
    t.cpu.sp == 0xFD && t.cpu.pc == 0xC003 && t.aux.reported == 6) = true := by decide

theorem test_rti : runs .rti { start [(0x01FB, 0x20), (0x01FC, 0x34), (0x01FD, 0x12)] with cpu.sp := 0xFA } (fun t =>
    flagsAre false false false false false false t && t.cpu.sp == 0xFD && t.cpu.pc == 0x1234 && t.aux.reported == 6) = true := by decide

theorem test_brk : runs .brk { start [(0xFFFE, 0x00), (0xFFFF, 0xD0)] with bus.bank.latch := 0x35 } (fun t =>
    ramAt 0x01FD t == 0xC0 && ramAt 0x01FC t == 0x02 && ramAt 0x01FB t == 0x34 && t.cpu.sp == 0xFA && t.cpu.p.i &&
      t.cpu.pc == 0xD000 && t.aux.reported == 7) = true := by decide

theorem test_bcc_taken : runs (.bcc 0x05) (start []) (fun t => t.cpu.pc == 0xC007 && t.aux.reported == 3) = true := by decide

theorem test_bcs_not_taken : runs (.bcs 0x05) (start []) (fun t => t.cpu.pc == 0xC002 && t.aux.reported == 2) = true := by decide

theorem test_beq_crosses : runs (.beq 0x80) { start [] with cpu.pc := 0xC010, cpu.p.z := true } (fun t =>
    t.cpu.pc == 0xBF92 && t.aux.reported == 4) = true := by decide

theorem test_bmi : runs (.bmi 0x7F) { start [] with cpu.p.n := true } (fun t =>
    t.cpu.pc == 0xC081 && t.aux.reported == 3) = true := by decide

theorem test_bne : runs (.bne 0xFB) { start [] with cpu.pc := 0xC008 } (fun t =>
    t.cpu.pc == 0xC005 && t.aux.reported == 3) = true := by decide

theorem test_bpl : runs (.bpl 0xFE) (start []) (fun t => t.cpu.pc == 0xC000 && t.aux.reported == 3) = true := by decide

theorem test_bvc : runs (.bvc 0x10) { start [] with cpu.p.v := true } (fun t =>
    t.cpu.pc == 0xC002 && t.aux.reported == 2) = true := by decide

theorem test_bvs_no_cross : runs (.bvs 0x00) { start [] with cpu.pc := 0xC0FE, cpu.p.v := true } (fun t =>
    t.cpu.pc == 0xC100 && t.aux.reported == 3) = true := by decide

/-! ### Flags and NOP -/

theorem test_clc : runs .clc { start [] with cpu.p.c := true } (fun t => !t.cpu.p.c && t.aux.reported == 2) = true := by decide

theorem test_cld : runs .cld { start [] with cpu.p.d := true } (fun t => !t.cpu.p.d) = true := by decide

theorem test_clv : runs .clv { start [] with cpu.p.v := true } (fun t => !t.cpu.p.v) = true := by decide

theorem test_sec : runs .sec (start []) (fun t => t.cpu.p.c) = true := by decide

theorem test_sed : runs .sed (start []) (fun t => t.cpu.p.d) = true := by decide

theorem test_cli : runs .cli (start []) (fun t => !t.cpu.p.i) = true := by decide

theorem test_nop : steps (start [(0xC000, 0xEA)]) (fun t =>
    t.cpu == { (start []).cpu with pc := 0xC001 } && t.engine.cycles == 2 && t.vic.rasterCycle == 2) = true := by decide

/-- CLI with an active IRQ line: entered at this same step's poll, 2 + 7 cycles (L2-7). -/
theorem test_cli_enters : steps { start [(0xC000, 0x58), (0xFFFE, 0x40), (0xFFFF, 0xC0)] with
      bus.bank.latch := 0x35, cia1.icrFlags := 1, cia1.icrMask := 1 } (fun t =>
    t.cpu.p.i && t.cpu.pc == 0xC040 && t.engine.cycles == 9 && ramAt 0x01FD t == 0xC0 && ramAt 0x01FC t == 0x01 &&
      ramAt 0x01FB t == 0x20) = true := by decide

/-- SEI with an active IRQ line: no entry at this poll (L2-7). -/
theorem test_sei : steps { start [(0xC000, 0x78)] with cpu.p.i := false, cia1.icrFlags := 1, cia1.icrMask := 1 } (fun t =>
    t.cpu.p.i && t.cpu.pc == 0xC001 && t.engine.cycles == 2) = true := by decide

/-! ### Steps that run no instruction, and interrupts -/

/-- The fault path of program P5, and an illegal byte that is a NOP on real parts (L2-7). -/
theorem test_illegal_opcode :
    steps (start [(0xC000, 0x02)]) (fun t => t.engine.status == .faulted (.illegalOpcode 0xC000 0x02) && t.cpu.pc == 0xC000 &&
      t.engine.cycles == 0) = true ∧
    steps (start [(0xC000, 0x1A)]) (fun t => t.engine.status == .faulted (.illegalOpcode 0xC000 0x1A)) = true := by decide

/-- R36, R195: no step from a Halted machine. -/
theorem test_halted_has_no_step :
    steps { start [(0xC000, 0xEA)] with engine.status := .halted 0xC000 } (fun _ => true) = false := by decide

/-- R10, R20: another Config, whose NOP takes 3 cycles, whose byte 0x02 is NOP and whose lines have 2 cycles. -/
theorem test_other_config :
    steps { start [(0xC000, 0x02)] with
        config := ⟨[⟨0x02, .nop, .imp⟩], .fault, [⟨.nop, .imp, 3, 0, 0⟩], ⟨2, 2⟩⟩ } (fun t =>
      t.engine.cycles == 3 && t.vic.rasterLine == 1 && t.vic.rasterCycle == 1 && t.cpu.pc == 0xC001) = true ∧
    steps { start [(0xC000, 0xEA)] with config := ⟨[], .fault, [], ⟨2, 2⟩⟩ } (fun t =>
      t.engine.status == .faulted (.illegalOpcode 0xC000 0xEA)) = true := by decide

/-- L1-7 vector 2. -/
theorem test_breakpoint : steps { start [(0xC000, 0xA9), (0xC001, 0x01)] with engine.breakpoint := some 0xC000 } (fun t =>
    t.engine.status == .halted 0xC000 && t.engine.cycles == 0 && t.cpu.a == 0) = true := by decide

/-- L2-11 vector 4: the first tick raises CIA2's output, and the NMI is entered in spite of I = 1. -/
theorem test_nmi : steps { start [(0xC000, 0xEA), (0xFFFA, 0x00), (0xFFFB, 0xC1)] with
      bus.bank.latch := 0x35
      cia2 := { Cia.reset .cia2 with icrMask := 1, taLatch := 0, ta := 0, cra := 0x01 } } (fun t =>
    t.cpu.pc == 0xC100 && !t.engine.nmiPending && t.engine.nmiPrev && t.engine.cycles == 9) = true := by decide

/-- L2-11 vector 3: D is stacked and stays. -/
theorem test_irq_keeps_decimal :
    (let t := interruptEntry .irq { start [(0xFFFE, 0x40), (0xFFFF, 0xC0)] with
        bus.bank.latch := 0x35, cpu.pc := 0xC024, cpu.p := ⟨false, false, true, false, false, false⟩ };
      ramAt 0x01FD t == 0xC0 && ramAt 0x01FC t == 0x24 && ramAt 0x01FB t == 0x28 && t.cpu.sp == 0xFA && t.cpu.p.d && t.cpu.p.i &&
        t.cpu.pc == 0xC040) = true := by decide

/-! ### Bus, chips, video view, disk, host -/

/-- L1-1: write then read, vectors 1, 2, 3, 6, 8, 9 and 11. -/
theorem test_write_then_read :
    busSource 0x0400 (memWrite 0x0400 0x5A (start [])) = some 0x5A ∧ busSource 0x0000 (memWrite 0x0000 0x2F (start [])) = some 0x2F ∧
      busSource 0x0001 (memWrite 0x0001 0x35 (start [])) = some 0x35 ∧
      busSource 0xA000 (memWrite 0x0001 0x36 (memWrite 0xA000 0x12 (start []))) = some 0x12 ∧
      busSource 0xD800 (memWrite 0xD800 0xAB (start [])) = some 0xAB ∧ busSource 0xD020 (memWrite 0xD020 0x06 (start [])) = some 0xF6 ∧
      busSource 0xDC04 (memWrite 0xDC04 0x10 (start [])) = some 0xFF := by decide

/-- L1-1: vectors 5, 7, 12 and 13, a ROM byte and a draw. -/
theorem test_write_under_rom :
    busSource 0xA000 (memWrite 0xA000 0x12 (start [])) = some (Config.romBasic 0) ∧
      busSource 0xE123 (memWrite 0xE123 0x77 (start [])) = some (Config.romKernal 0x123) ∧
      busSource 0xD400 (memWrite 0xD400 0x01 (start [])) = none ∧ busSource 0xDE00 (memWrite 0xDE00 0x01 (start [])) = none :=
  ⟨rfl, rfl, rfl, rfl⟩

/-- L1-5: an 8K cartridge and its removal. -/
theorem test_cartridge :
    busSource 0x8000 (insertCart ⟨[0xC3], 0x8000, true, false, "I8"⟩ (start [(0x8000, 0x11)])) = some 0xC3 ∧
      busSource 0x8000 (removeCart (insertCart ⟨[0xC3], 0x8000, true, false, "I8"⟩ (start [(0x8000, 0x11)]))) = some 0x11 ∧
      busSource 0x1000 (insertCart ⟨[], 0xE000, false, true, "IU"⟩ (start [])) = none := by decide

/-- L2-9 vectors 5 (timer B counts timer A), 8, 9 and 12. -/
theorem test_timers :
    (let c := ({ Cia.reset .cia1 with taLatch := 0, ta := 0, tbLatch := 1, tb := 1, cra := 0x01, crb := 0x41 } : Cia).tick.tick;
      c.tb == 1 && c.icrFlags == 0b11) = true ∧
    (let c := ({ Cia.reset .cia1 with ta := 0x0100, cra := 0x01 } : Cia).regWrite 0x5 0x20;
      hiByte c.taLatch == 0x20 && c.ta == 0x0100) = true ∧
    (((Cia.reset .cia1).regWrite 0xE 0x11).cra == 0x01) = true ∧
    ((({ Cia.reset .cia1 with icrMask := 0x1F } : Cia).regWrite 0xD 0x7F).icrMask == 0) = true := by decide

/-- L2-9, the ports: key (1, 3) with column 1 driven low; joystick 2; no ghosting; CIA2. -/
theorem test_ports :
    (({ Cia.reset .cia1 with ddra := 0xFF, pra := 0xFD } : Cia).portB
      { CiaInput.reset with keys := CiaInput.reset.keys.set 1 (CiaInput.reset.keys[1].set 3 true) }) = 0xF7 ∧
    (({ Cia.reset .cia1 with ddra := 0xFF, pra := 0xFF } : Cia).portA { CiaInput.reset with joy2 := 0b10001 }) = 0xEE ∧
    (({ Cia.reset .cia2 with ddra := 0x3F, pra := 0x15 } : Cia).portA CiaInput.reset) = 0xD5 := by decide

/-- L2-10: register reads, and the raster flag at the start of line 0x30. -/
theorem test_video :
    (Vic.reset.regWrite 0x16 0x08).regRead 0x16 = some 0xC8 ∧ (Vic.reset.regWrite 0x18 0x14).regRead 0x18 = some 0x15 ∧
      (Vic.reset.regWrite 0x1A 0x01).regRead 0x1A = some 0xF1 ∧ Vic.reset.regRead 0x2F = some 0xFF ∧ Vic.reset.regRead 0x13 = none ∧
      (({ Vic.reset with rasterLine := 0x2F, rasterCycle := 62, rasterCompare := 0x30, irqEnable := 1 } : Vic).tick
        defaultGeometry).regRead 0x19 = some 0xF1 := by decide

/-- L2-10: with DEN = 1 at line 0x30 and YSCROLL = 3, 25 badlines from 0x33 to 0xF3. -/
theorem test_badlines :
    (let v : Vic := { (Vic.reset.regWrite 0x11 0x1B) with badlineEnable := true };
      v.badline 0x33 && v.badline 0xF3 && !v.badline 0x34 && ((List.range 312).filter fun l => v.badline l).length == 25) = true := by
  decide

/-- L2-8: the video view's bank select. -/
theorem test_vbank :
    vbank { start [] with cia2.ddra := 0x03, cia2.pra := 0x02 } = 1 ∧ vbank { start [] with cia2.ddra := 0x03, cia2.pra := 0x00 } = 3 ∧
      vicColorRead 0 { start [] with bus.colorRam := [(0, 0xAB)] } = 0x0B := by decide

/-- L2-12: offsets. -/
theorem test_disk_offsets :
    diskOffset 1 20 = 0x01400 ∧ diskOffset 17 20 = 0x16400 ∧ diskOffset 18 0 = 0x16500 ∧ diskOffset 24 18 = 0x1E900 ∧
      diskOffset 25 0 = 0x1EA00 ∧ diskOffset 30 17 = 0x25500 ∧ diskOffset 31 0 = 0x25600 ∧ diskOffset 35 16 = 0x2AA00 := by decide

/-- L1-3: truncation of the empty stream. -/
theorem test_disk_truncated : (match parseDisk [] with | .error (.diskTruncated t s) => t == 1 && s == 0 | _ => false) = true := by
  decide

/-- L1-8: breakpoint text. -/
theorem test_breakpoint_text :
    (match parseBreakpointChars ['C', '0', '0', 'd'] with | .ok a => a == 0xC00D | .error _ => false) = true ∧
    (match parseBreakpointChars ['0', 'x', 'C', '0'] with | .error (.configError _) => true | _ => false) = true ∧
    (match parseBreakpointChars ['1', '2', '3', '4', '5'] with | .error (.configError _) => true | _ => false) = true ∧
    (match parseBreakpointChars [] with | .error (.configError _) => true | _ => false) = true := by decide

/-! ### Witnesses: the hypotheses of the statements can be met -/

theorem witness_DecodeOfEncodeIsTheInstruction : (Instr.jmpInd 0xFFFF).wellFormed = true := by decide

theorem witness_OnlyEncodingsDecode : decodeBytes [0x6C, 0xFF, 0xFF, 0x00] = .ok (.jmpInd 0xFFFF, [0x00]) := rfl

theorem witness_StepRunsTheDecodedInstruction :
    canFetch (start [(0xC000, 0xEA)]) ∧
      decodeWith (start [(0xC000, 0xEA)]).config.isa (fetchBytes (start [(0xC000, 0xEA)])).1 = .ok (.nop, []) :=
  ⟨⟨rfl, by decide⟩, rfl⟩

/-- An instruction across the top of memory, with all of memory RAM. -/
def atTop : State := { start [(0x0000, 0x80), (0xFFFF, 0xA9)] with cpu.pc := 0xFFFF, bus.bank.latch := 0x34 }

theorem witness_StepRunsTheInstructionInMemory :
    atTop.config.isa = defaultIsa ∧ canFetch atTop ∧ decodeWith atTop.config.isa (encode (.ldaImm 0x80)) = .ok (.ldaImm 0x80, []) ∧
      ∀ (k : Nat) (b : Byte), (encode (.ldaImm 0x80))[k]? = some b →
        busSource (atTop.cpu.pc + BitVec.ofNat 16 k) atTop = some b ∧ ¬readsIcr1 (atTop.cpu.pc + BitVec.ofNat 16 k) atTop ∧
          ¬readsIcr2 (atTop.cpu.pc + BitVec.ofNat 16 k) atTop := by
  refine ⟨rfl, ⟨rfl, by decide⟩, rfl, fun k b h => ?_⟩
  match k with
  | 0 => cases h; unfold readsIcr1 readsIcr2; decide
  | 1 => cases h; unfold readsIcr1 readsIcr2; decide
  | k + 2 => cases h

theorem witness_BreakpointHaltsBeforeTheFetch :
    (let s := { start [] with engine.breakpoint := some 0xC000 };
      s.engine.status = .running ∧ s.engine.breakpoint = some s.cpu.pc) ∧
    (∃ pc, { start [] with engine.status := .halted 0xC000 }.engine.status = .halted pc) ∧
    ∃ f, { start [] with engine.status := .faulted (.illegalOpcode 0xC000 0x02) }.engine.status = .faulted f :=
  ⟨⟨rfl, rfl⟩, ⟨_, rfl⟩, _, rfl⟩

theorem witness_IllegalOpcodesFault : canFetch (start [(0xC000, 0xFF)]) ∧ fetchesIllegal (start [(0xC000, 0xFF)]) :=
  ⟨⟨rfl, by decide⟩, rfl⟩

theorem witness_StepKeepsWhatTheHostOwns : ∃ t, step (start [(0xC000, 0xEA)]) = .next t := ⟨_, rfl⟩

theorem witness_NmiEdgesAreLatchedAndServedFirst :
    { start [] with engine.nmiPending := true }.engine.nmiPending = true ∧
    (let s := { start [] with cpu.p.i := false, vic.irqFlags := 1, vic.irqEnable := 1 };
      s.engine.nmiPending = false ∧ (s.cia1.irq || s.vic.irq) = true ∧ s.cpu.p.i = false) ∧
    ((start []).engine.nmiPending = false ∧ (start []).cpu.p.i = true) := by decide

/-- S = 0x01, so that the three stacked bytes wrap. -/
theorem witness_ReturnResumesTheInterruptedProgram :
    (let s := { start [] with cpu.sp := 0x01 };
      let u := interruptEntry .irq s
      u.cpu.sp = (interruptEntry .irq s).cpu.sp ∧
        (∀ j : Nat, 1 ≤ j → j ≤ 3 → stackByte u.cpu.sp j u = stackByte u.cpu.sp j (interruptEntry .irq s)) ∧
        ∃ b : Addr, ∀ j : Nat, 254 ≤ j → j ≤ 256 → b ≠ BitVec.ofNat 16 (0x100 + (s.cpu.sp.toNat + j) % 256)) := by
  refine ⟨rfl, fun _ _ _ => rfl, 0x0200, fun j _ _ h => ?_⟩
  have := congrArg BitVec.toNat h
  simp at this
  omega

theorem witness_StepNotifiesReportedCycles :
    (canFetch (start [(0xC000, 0xEA)]) ∧
      decodeWith (start [(0xC000, 0xEA)]).config.isa (fetchBytes (start [(0xC000, 0xEA)])).1 = .ok (.nop, []) ∧
      ∃ t, exec .nop (fetchBytes (start [(0xC000, 0xEA)])).2 = .next t) ∧
    ((start [(0xC000, 0x02)]).engine.status = .running ∧ fetchesIllegal (start [(0xC000, 0x02)])) ∧
    (let s := { start [] with engine.breakpoint := some 0xC000 };
      s.engine.status = .running ∧ s.engine.breakpoint = some s.cpu.pc) :=
  ⟨⟨⟨rfl, by decide⟩, rfl, _, rfl⟩, ⟨rfl, rfl⟩, rfl, rfl⟩

theorem start_inv : (start [(0xC000, 0xEA)]).Inv := ⟨by decide, by decide, by decide, by decide, by decide, rfl⟩

theorem witness_EveryStepKeepsTheInvariant : (start [(0xC000, 0xEA)]).Inv ∧ ∃ t, step (start [(0xC000, 0xEA)]) = .next t :=
  ⟨start_inv, _, rfl⟩

/-- A geometry other than the default one, of one cycle a line, is launched too. -/
theorem witness_EveryReachableStateMeetsTheInvariant :
    (∃ s, Reachable s) ∧
    (let g : Geometry := ⟨1, 2⟩;
      g.valid = true ∧ ∃ s, launch ⟨{ defaultConfig with geometry := g }, none, .absent, 8192, 8192, 4096⟩ = .ok s) ∧
    ∃ t, hostEvent (.keyDown 7 7) (start [(0xC000, 0xEA)]) = .ok t :=
  ⟨⟨_, .launch ⟨defaultConfig, none, .absent, 8192, 8192, 4096⟩ _ rfl rfl⟩, ⟨rfl, _, rfl⟩, _, rfl⟩

/-- The reset vector is the last two bytes of the image: the boundary of the clause. -/
theorem witness_LaunchReadsTheResetVector :
    (let c : Cart := ⟨[0x00, 0xE0], 0xFFFC, false, true, "IU"⟩;
      c.game = false ∧ c.exrom = true ∧ c.load.toNat ≤ 0xFFFC ∧ c.image[0xFFFC - c.load.toNat]? = some 0x00 ∧
        c.image[0xFFFD - c.load.toNat]? = some 0xE0) ∧
    (let c : Cart := ⟨[], 0x8000, true, false, "I8"⟩;
      ¬(c.game = false ∧ c.exrom = true)) := by decide

theorem witness_LaunchChecksTheConfiguration :
    (∃ s, launch ⟨defaultConfig, some "C00D", .absent, 8192, 8192, 4096⟩ = .ok s) ∧
      (∃ s, launch ⟨defaultConfig, none, .absent, 8192, 8192, 4096⟩ = .ok s) ∧
      ∃ e, launch ⟨defaultConfig, some "", .absent, 8192, 8192, 4096⟩ = .error e :=
  ⟨⟨_, rfl⟩, ⟨_, rfl⟩, _, rfl⟩

/-- Every region at the first and the last address of its window, under a bank state that shows it. -/
theorem witness_ReadReturnsTheVisibleByte :
    (resolve 0x0000 ⟨0x37, true, true⟩ = .ram ∧ resolve 0xFFFF ⟨0x34, true, true⟩ = .ram) ∧
    (resolve 0xA000 ⟨0x37, true, true⟩ = .basic ∧ resolve 0xBFFF ⟨0x37, true, true⟩ = .basic) ∧
    (resolve 0xE000 ⟨0x37, true, true⟩ = .kernal ∧ resolve 0xFFFF ⟨0x37, true, true⟩ = .kernal) ∧
    (resolve 0xD000 ⟨0x33, true, true⟩ = .char ∧ resolve 0xDFFF ⟨0x33, true, true⟩ = .char) ∧
    (resolve 0x1000 ⟨0x37, false, true⟩ = .unmapped ∧ resolve 0xCFFF ⟨0x37, false, true⟩ = .unmapped) ∧
    (resolve 0x8000 ⟨0x37, true, false⟩ = .roml ∧ resolve 0x9FFF ⟨0x37, true, false⟩ = .roml) ∧
    (resolve 0xA000 ⟨0x37, false, false⟩ = .romh ∧ resolve 0xFFFF ⟨0x37, false, true⟩ = .romh) ∧
    (resolve 0xD000 ⟨0x37, true, true⟩ = .io ∧ resolve 0xD3FF ⟨0x37, true, true⟩ = .io ∧ resolve 0xD400 ⟨0x37, true, true⟩ = .io ∧
      resolve 0xD7FF ⟨0x37, true, true⟩ = .io ∧ resolve 0xD800 ⟨0x37, true, true⟩ = .io ∧ resolve 0xDBFF ⟨0x37, true, true⟩ = .io ∧
      resolve 0xDC00 ⟨0x37, true, true⟩ = .io ∧ resolve 0xDCFF ⟨0x37, true, true⟩ = .io ∧ resolve 0xDD00 ⟨0x37, true, true⟩ = .io ∧
      resolve 0xDDFF ⟨0x37, true, true⟩ = .io ∧ resolve 0xDE00 ⟨0x37, true, true⟩ = .io ∧ resolve 0xDFFF ⟨0x37, true, true⟩ = .io) := by
  decide

theorem witness_OnlyIcrReadsHaveAnEffect :
    readsIcr1 0xDC0D (start []) ∧ readsIcr1 0xDCFD (start []) ∧ readsIcr2 0xDD0D (start []) ∧ readsIcr2 0xDDFD (start []) ∧
      ¬readsIcr1 0xDD0D (start []) ∧ ¬readsIcr2 0xDC0D (start []) ∧ ¬readsIcr1 0xDC0E (start []) ∧ ¬readsIcr2 0xDC0E (start []) := by
  unfold readsIcr1 readsIcr2
  decide

/-- The regions of each clause, as in `witness_ReadReturnsTheVisibleByte`, on the machine. -/
theorem witness_WriteReachesOneStore :
    resolve 0xA000 (start []).bus.bank ∈ [.ram, .basic, .kernal, .char] ∧
      resolve 0x9FFF { (start []).bus.bank with exrom := false } ∈ [Region.roml, .romh] ∧
      resolve 0x1000 { (start []).bus.bank with game := false } = .unmapped ∧ resolve 0xDBFF (start []).bus.bank = .io := by decide

theorem witness_ReadAfterWrite :
    resolve 0xD800 (start []).bus.bank = .io ∧ resolve 0xDBFF (start []).bus.bank = .io ∧ resolve 0xD7FF (start []).bus.bank = .io ∧
      resolve 0xDE00 (start []).bus.bank = .io ∧ resolve 0xE000 (start []).bus.bank ∈ [.basic, .kernal, .char, .roml, .romh, .unmapped] ∧
      (0x0002#16 : Addr) ≠ 0x0001#16 := by decide

/-- Each of the four layouts, with the one byte of the image at the window's first or last address. -/
theorem witness_CartridgeVisibility :
    (∃ t, hostEvent (.insertCart ⟨[0xC3], 0x8000, true, false, "I8"⟩) (start []) = .ok t) ∧
    ((⟨[0xC3], 0x8000, true, false, "I8"⟩ : Cart).image[0x8000 - 0x8000]? = some 0xC3 ∧ (start []).bus.bank.latch.toNat % 4 = 3) ∧
    (∃ t, hostEvent (.insertCart ⟨[0xC3], 0x8000, false, false, "I16"⟩) (start []) = .ok t) ∧
    (∃ t, hostEvent (.insertCart ⟨[0xC3], 0x8000, false, true, "UL"⟩) (start []) = .ok t) ∧
    (∃ t, hostEvent (.insertCart ⟨[0xC3], 0xE000, false, true, "UH"⟩) (start []) = .ok t) ∧
    (⟨[0xC3], 0xE000, false, true, "UH"⟩ : Cart).image[0xE000 - 0xE000]? = some 0xC3 :=
  ⟨⟨_, rfl⟩, by decide, ⟨_, rfl⟩, ⟨_, rfl⟩, ⟨_, rfl⟩, by decide⟩

theorem witness_VideoViewReads :
    (start []).bus.ram = ({ start [] with cpu.a := 1 }).bus.ram ∧ (start []).bus.colorRam = ({ start [] with cpu.a := 1 }).bus.colorRam ∧
      (start []).cia2 = ({ start [] with cpu.a := 1 }).cia2 := by decide

theorem witness_LoadInstructions :
    readInstr .lda (.imm 0x80) = some (0xA9, .ldaImm 0x80) ∧ readInstr .lda (.mem (.indy 0xFF)) = some (0xB1, .ldaIndy 0xFF) ∧
      readInstr .ldx (.mem (.zpy 0xFF)) = some (0xB6, .ldxZpy 0xFF) ∧
      readInstr .ldy (.mem (.absx 0xFFFF)) = some (0xBC, .ldyAbsx 0xFFFF) := by
  decide

theorem witness_StoreInstructions :
    storeInstr .sta (.indx 0xFF) = some (0x81, .staIndx 0xFF) ∧ storeInstr .stx (.zpy 0xFF) = some (0x96, .stxZpy 0xFF) ∧
      storeInstr .sty (.abs 0xFFFF) = some (0x8C, .styAbs 0xFFFF) := by decide

theorem witness_AddInstruction : readInstr .adc (.mem (.absy 0xFFFF)) = some (0x79, .adcAbsy 0xFFFF) := by decide

theorem witness_SubtractInstruction : readInstr .sbc (.mem (.indx 0xFF)) = some (0xE1, .sbcIndx 0xFF) := by decide

theorem witness_DecimalModeComputesDecimalNumbers : (99 : Nat) < 100 ∧ (0 : Nat) < 100 := by decide

theorem witness_CompareInstructions :
    readInstr .cmp (.mem (.indy 0xFF)) = some (0xD1, .cmpIndy 0xFF) ∧ readInstr .cpx (.imm 0xFF) = some (0xE0, .cpxImm 0xFF) ∧
      readInstr .cpy (.mem (.abs 0xFFFF)) = some (0xCC, .cpyAbs 0xFFFF) := by decide

theorem witness_LogicInstructions :
    readInstr .and (.mem (.absx 0xFFFF)) = some (0x3D, .andAbsx 0xFFFF) ∧ readInstr .ora (.mem (.zpx 0xFF)) = some (0x15, .oraZpx 0xFF) ∧
      readInstr .eor (.imm 0xFF) = some (0x49, .eorImm 0xFF) ∧ readInstr .bit (.mem (.zp 0xFF)) = some (0x24, .bitZp 0xFF) := by decide

theorem witness_ReadModifyWriteAndShiftInstructions :
    modifyInstr .inc (.absx 0xFFFF) = some (0xFE, .incAbsx 0xFFFF) ∧ modifyInstr .ror (.zpx 0xFF) = some (0x76, .rorZpx 0xFF) ∧
      shiftAccInstr .rol = some (0x2A, .rolAcc) := by decide

theorem witness_RegisterInstructions :
    registerInstr (start []).cpu .txs = some (0x9A, .txs, { (start []).cpu with sp := 0 }) ∧
      (registerInstr (start []).cpu .dey).isSome = true := by decide

theorem witness_FlagInstructionsAndNop :
    flagInstr (start []).cpu.p .nop = some (0xEA, .nop, (start []).cpu.p) ∧ (flagInstr (start []).cpu.p .sed).isSome = true := by decide

theorem witness_SubroutineInstructions : ∃ t, exec (.jsr 0xFFFF) { start [] with cpu.pc := 0xFFFE, cpu.sp := 0x00 } = .next t := ⟨_, rfl⟩

theorem witness_BranchInstructions :
    ∃ op mk cond, branchInstr .bvs = some (op, mk, cond) ∧ cond ⟨false, true, false, false, false, false⟩ = true ∧
      cond ⟨true, false, true, true, true, true⟩ = false := ⟨_, _, _, rfl, rfl, rfl⟩

theorem witness_ReadingInstructionsFrame :
    readInstr .bit (.mem (.abs 0xDC0D)) = some (0x2C, .bitAbs 0xDC0D) ∧ ∃ t, exec (.bitAbs 0xDC0D) (start []) = .next t :=
  ⟨rfl, _, rfl⟩

theorem witness_StoringInstructionsFrame :
    storeInstr .sta (.abs 0xD800) = some (0x8D, .staAbs 0xD800) ∧ modifyInstr .inc (.abs 0xDC0D) = some (0xEE, .incAbs 0xDC0D) ∧
      ∃ t, exec (.incAbs 0xDC0D) (start []) = .next t := ⟨rfl, rfl, _, rfl⟩

theorem witness_FlagsAreWrittenByTheListedInstructions :
    runs .sec (start []) (fun t => t.cpu.p.c != (start []).cpu.p.c) = true ∧
      runs .plp { start [(0x01FE, 0xCB)] with cpu.sp := 0xFD } (fun t =>
        t.cpu.p.n && t.cpu.p.v && t.cpu.p.d && t.cpu.p.z && t.cpu.p.c && !t.cpu.p.i) = true := by decide

theorem witness_RegistersAndMemoryAreWrittenByTheListed :
    runs (.ldaImm 0x01) (start []) (fun t => t.cpu.a != (start []).cpu.a) = true ∧
      runs .txs (start []) (fun t => t.cpu.sp != (start []).cpu.sp) = true ∧ Mnemonic.nop ∉ transfers ∧ Mnemonic.nop ∉ writers := by decide

/-- One state for each of the four clauses, at the latch's two ends. -/
theorem witness_TimerPeriodAndOneShot :
    (let c : Cia := { Cia.reset .cia1 with cra := 0x01 };
      c.cra.getLsbD 0 = true ∧ c.cra.getLsbD 3 = false ∧ c.cra.getLsbD 5 = false ∧ c.ta = c.taLatch ∧ c.icrFlags.getLsbD 0 = false) ∧
    (let c : Cia := { Cia.reset .cia1 with crb := 0x01, tbLatch := 0, tb := 0 };
      c.crb.getLsbD 0 = true ∧ c.crb.getLsbD 3 = false ∧ c.crb.getLsbD 5 = false ∧ c.crb.getLsbD 6 = false ∧ c.tb = c.tbLatch ∧
        c.icrFlags.getLsbD 1 = false) ∧
    (let c : Cia := { Cia.reset .cia1 with cra := 0x09, ta := 0 };
      c.cra.getLsbD 0 = true ∧ c.cra.getLsbD 3 = true ∧ c.cra.getLsbD 5 = false ∧ c.ta = 0) ∧
    (let c : Cia := { Cia.reset .cia1 with crb := 0x09, tb := 0 };
      c.crb.getLsbD 0 = true ∧ c.crb.getLsbD 3 = true ∧ c.crb.getLsbD 5 = false ∧ c.crb.getLsbD 6 = false ∧ c.tb = 0) := by decide

/-- The ignored indices, at both ends. -/
theorem witness_TimerLatchWrites : (0x8 ≤ (0x8#4 : BitVec 4).toNat ∧ (0xC#4 : BitVec 4).toNat ≤ 0xC) := by decide

theorem witness_InterruptControlRegister : (0 : Nat) < 5 ∧ (4 : Nat) < 5 ∧ (0xE#4 : BitVec 4) ≠ 0xD#4 := by decide

theorem witness_PortPins :
    (Cia.reset .cia1).id = .cia1 ∧ (Cia.reset .cia2).id = .cia2 ∧ 0x8 ≤ (0x8#4 : BitVec 4).toNat ∧ (0xC#4 : BitVec 4).toNat ≤ 0xC := by
  decide

/-- The smallest geometry and the default one. -/
theorem witness_RasterPosition : Geometry.valid ⟨1, 1⟩ = true ∧ defaultGeometry.valid = true := by decide

/-- Within a line, and at the start of the next. -/
theorem witness_VideoTickAndBadlines :
    Vic.reset.rasterCycle + 1 ≠ defaultGeometry.cyclesPerLine ∧
      ({ Vic.reset with rasterCycle := 62 } : Vic).rasterCycle + 1 = defaultGeometry.cyclesPerLine := by decide

/-- A compare line that the default geometry has, the last one, and the first one that it has not. -/
theorem witness_RasterInterruptTiming :
    defaultGeometry.valid = true ∧ (311#9).toNat < 312 ∧ 312 ≤ (312#9).toNat := by decide

theorem witness_RasterAcknowledge :
    (3 : Nat) < 4 ∧ (0x1A#6 : BitVec 6) ≠ 0x19#6 ∧ ({ Vic.reset with irqFlags := 1 } : Vic).irqFlags.getLsbD 0 = true ∧
    (let s := { start [] with vic.irqFlags := 1 };
      resolve 0xD019#16 s.bus.bank = .io ∧ s.vic.irqFlags = 1#4) ∧
    ∃ t, exec (.lsrAbs 0xD019) { start [] with vic.irqFlags := 1 } = .next t :=
  ⟨by decide, by decide, by decide, by decide, _, rfl⟩

/-- Every index of the video chip is under exactly one of the statement's read clauses. -/
theorem witness_VideoRegisters :
    ∀ i : BitVec 6,
      [decide (i.toNat ≤ 0x10 ∨ i.toNat ∈ [0x15, 0x17, 0x1B, 0x1C, 0x1D]), decide (i.toNat = 0x11), decide (i.toNat = 0x12),
        decide (i.toNat ∈ [0x13, 0x14, 0x1E, 0x1F]), decide (i.toNat = 0x16), decide (i.toNat = 0x18), decide (i.toNat = 0x19),
        decide (i.toNat = 0x1A), decide (0x20 ≤ i.toNat ∧ i.toNat ≤ 0x2E), decide (0x2F ≤ i.toNat)].count true = 1 := by decide

theorem witness_DiskGeometry : (35, 17, 666, 0x29A00) ∈ diskTable := by decide

theorem witness_ParsedBytesAreTheStreamBytes :
    174848 ≤ (List.replicate 174848 (0x00#8 : Byte)).length ∧ (1 : Nat) ≤ 35 ∧ 16 < spt 35 ∧ 20 < spt 1 ∧ 255 < 256 := by
  rw [List.length_replicate]
  decide

theorem witness_ShortStreamsFailAtTheFirstMissingSector :
    (List.replicate 174847 (0x00#8 : Byte)).length < 174848 ∧ 174848 ≤ (List.replicate 174853 (0x00#8 : Byte)).length := by
  rw [List.length_replicate, List.length_replicate]
  decide

/-- A buffer of 257 bytes, one of 256, a whole image of zero sectors, and the lookups' bounds. -/
theorem witness_SectorsAndLookups :
    256 < (List.replicate 257 (0x00#8 : Byte)).length ∧ (List.replicate 256 (0x00#8 : Byte)).length ≤ 256 ∧
      (DiskImage.mk ((List.range' 1 35).map fun t => List.replicate (spt t) (Vector.replicate 256 0x00#8))).wf = true ∧
      ((1 : Int) ≤ 35 ∧ (0 : Int) ≤ 16 ∧ (16 : Int) < spt 35) ∧
      ((-1 : Int) < 0 ∧ (spt 35 : Int) ≤ 17) ∧ ((0 : Int) < 1 ∧ (35 : Int) < 36) := by
  rw [List.length_replicate, List.length_replicate]
  refine ⟨by decide, by decide, ?_, by decide, by decide, by decide⟩
  simp [DiskImage.wf, Config.numTracks]

theorem witness_HostInputAndAddressChecks :
    ((7 : Nat) < 8 ∧ (0 : Nat) < 8 ∧ 8 ≤ (8 : Nat)) ∧ ((0 : Nat) ≠ 1 ∧ (3 : Nat) ≠ 2) ∧ ((-1 : Int) < 0 ∧ 0xFFFF < (0x10000 : Int)) ∧
      (0xFFFF : Int) = (0xFFFF#16 : Addr).toNat := by decide

end Sys2Proof.Tests
end

namespace Sys2Proof.Machine

/-! ### What a step keeps for the host -/

/-- From `s` to `t` what the host owns is as it was (the Config R20, the breakpoint R37, the input state R48, the cartridge and its lines R40),
and the cycle count has not gone back. -/
def HostKept (s t : State) : Prop :=
  t.config = s.config ∧ t.engine.breakpoint = s.engine.breakpoint ∧ t.input = s.input ∧ t.bus.cart = s.bus.cart ∧
    t.bus.bank.game = s.bus.bank.game ∧ t.bus.bank.exrom = s.bus.bank.exrom ∧ s.engine.cycles ≤ t.engine.cycles

theorem raiseIllegalOpcode_eq (op : Byte) (s : State) :
    raiseIllegalOpcode op s = s.setStatus (.faulted (.illegalOpcode s.cpu.pc op)) := by
  cases h : s.config.illegal with
  | fault => rw [raiseIllegalOpcode, h]

namespace HostKept

variable {s t : State}

theorem refl (s : State) : HostKept s s := ⟨rfl, rfl, rfl, rfl, rfl, rfl, Nat.le_refl _⟩

/-- Bus accesses, register updates and reports touch nothing of the host's, nor the clock. -/
theorem closed (s : State) : Closed (HostKept s) where
  read a t h := by simpa [HostKept] using h
  write a v t h := by simpa [HostKept] using h
  cpu _ _ h := h
  reported _ _ h := h

/-- Notification only advances the clock of what the host can see (R186). -/
theorem notify (c : Nat) (h : HostKept s t) : HostKept s (notify c t) := by
  obtain ⟨hconfig, hbreakpoint, hinput, hcart, hgame, hexrom, hcycles⟩ := h
  have hlater : s.engine.cycles ≤ t.engine.cycles + c := Nat.le_add_right_of_le hcycles
  simp only [HostKept, notify_config, notify_breakpoint, notify_input, notify_bus, notify_cycles]
  exact ⟨hconfig, hbreakpoint, hinput, hcart, hgame, hexrom, hlater⟩

theorem sampleNmi (h : HostKept s t) : HostKept s (sampleNmi t) := h

theorem setNmiPending (b : Bool) (h : HostKept s t) : HostKept s (t.setNmiPending b) := h

theorem setStatus (r : RunStatus) (h : HostKept s t) : HostKept s (t.setStatus r) := h

theorem interruptEntry (k : InterruptKind) (h : HostKept s t) : HostKept s (interruptEntry k t) :=
  ((closed s).takeException h).sampleNmi.notify 7

theorem poll (h : HostKept s t) : HostKept s (poll t) := by
  rcases poll_cases t with ⟨_, e⟩ | ⟨_, _, _, e⟩ | ⟨_, _, e⟩ <;> rw [e]
  · exact (h.setNmiPending false).interruptEntry .nmi
  · exact h.interruptEntry .irq
  · exact h

theorem finishStep (h : HostKept s t) : HostKept s (finishStep t) :=
  (((closed s).reported 0 t h).sampleNmi.notify _).poll

/-- Every way a step can end in a next state: the breakpoint halt, the illegal opcode, and a finished instruction. -/
theorem of_step (h : step s = .next t) : HostKept s t := by
  have hfetch : HostKept s (fetchBytes s).2 := (closed s).fetchBytes (refl s)
  rcases step_cases s with ⟨_, _, e⟩ | ⟨_, _, e⟩ | ⟨_, _, e⟩ | ⟨_, _, _, e⟩ | ⟨_, _, i, _, u, _, hu, e⟩ <;>
    rw [e] at h <;> cases h
  · exact (refl s).setStatus _
  · rw [raiseIllegalOpcode_eq]
    exact hfetch.setStatus _
  · obtain ⟨v, hv, hkept⟩ := (closed s).exec i hfetch
    cases hu.symm.trans hv
    exact hkept.finishStep

end HostKept

/-- Settles O9: each operation a step is made of keeps what the host owns and does not turn the clock back. -/
theorem stepKeepsWhatTheHostOwns : Obligations.StepKeepsWhatTheHostOwns :=
  fun _ _ => HostKept.of_step

end Sys2Proof.Machine

namespace Sys2Proof.Machine

/-! ### Every step keeps the invariant -/

theorem State.Inv.devices {s : State} (h : s.Inv) : devicesInv s := ⟨h.bus, h.cia1, h.cia2, h.vic⟩

theorem State.Inv.of_devices {s : State} (h : devicesInv s) (hn : nmiSampled s = true) (hr : s.aux.reported = 0) : s.Inv := by
  obtain ⟨hbus, hcia1, hcia2, hvic⟩ := h
  exact ⟨hbus, hcia1, hcia2, hvic, hn, hr⟩

/-- A sampler at the line's level is up to date in every status. -/
theorem nmiSampled_of_prev {s : State} (h : s.engine.nmiPrev = s.cia2.irq) : nmiSampled s = true := by
  unfold nmiSampled
  split
  · exact beq_iff_eq.2 h
  · rfl
  · rfl

/-- An entry samples after its accesses, and each of its 7 cycles ends with a sample (R188, R365). -/
theorem interruptEntry_nmiPrev (k : InterruptKind) (s : State) :
    (interruptEntry k s).engine.nmiPrev = (interruptEntry k s).cia2.irq :=
  notify_nmiPrev 7 rfl

@[simp] theorem interruptEntry_reported (k : InterruptKind) (s : State) :
    (interruptEntry k s).aux.reported = s.aux.reported := by
  simp [interruptEntry]

theorem poll_nmiPrev {s : State} (h : s.engine.nmiPrev = s.cia2.irq) : (poll s).engine.nmiPrev = (poll s).cia2.irq := by
  rcases poll_cases s with ⟨_, e⟩ | ⟨_, _, _, e⟩ | ⟨_, _, e⟩ <;> rw [e]
  · exact interruptEntry_nmiPrev _ _
  · exact interruptEntry_nmiPrev _ _
  · exact h

@[simp] theorem poll_reported (s : State) : (poll s).aux.reported = s.aux.reported := by
  rcases poll_cases s with ⟨_, e⟩ | ⟨_, _, _, e⟩ | ⟨_, _, e⟩ <;> simp [e]

/-- Whatever an instruction left of the sampler and the report, the phases after it restore both parts of the invariant. -/
theorem finishStep_inv {s : State} (h : devicesInv s) : (finishStep s).Inv := by
  refine .of_devices ?_ (nmiSampled_of_prev ?_) ?_
  · exact devicesInv_poll (devicesInv_notify _ (devicesInv_sampleNmi (closed_devicesInv.reported 0 s h)))
  · exact poll_nmiPrev (notify_nmiPrev _ rfl)
  · simp [finishStep]

theorem haltAtBreakpoint_inv {s : State} (h : s.Inv) : (haltAtBreakpoint s).Inv := .of_devices h.devices rfl h.reported

theorem raiseIllegalOpcode_inv {s : State} (op : Byte) (h : devicesInv s) (hr : s.aux.reported = 0) :
    (raiseIllegalOpcode op s).Inv := by
  rw [raiseIllegalOpcode_eq]
  exact .of_devices h rfl hr

theorem State.Inv.step {s t : State} (h : s.Inv) (hst : step s = .next t) : t.Inv := by
  have hfetch : devicesInv (fetchBytes s).2 := closed_devicesInv.fetchBytes h.devices
  rcases step_cases s with ⟨_, _, e⟩ | ⟨_, _, e⟩ | ⟨_, _, e⟩ | ⟨_, _, _, e⟩ | ⟨_, _, i, _, u, _, hu, e⟩ <;>
    rw [e] at hst <;> cases hst
  · exact haltAtBreakpoint_inv h
  · exact raiseIllegalOpcode_inv _ hfetch (by simpa using h.reported)
  · obtain ⟨v, hv, hdev⟩ := closed_devicesInv.exec i hfetch
    cases hu.symm.trans hv
    exact finishStep_inv hdev

/-- Settles O16: of the ways a step can end, the halt and the fault change no device, and a finished instruction is a chain of
bus accesses and ticks that keep the devices, closed by an NMI sample with the report back at 0. -/
theorem everyStepKeepsTheInvariant : Obligations.EveryStepKeepsTheInvariant :=
  fun _ _ => State.Inv.step

end Sys2Proof.Machine

namespace Sys2Proof

/-! ### Decoding what stands in memory -/

/-- The operand bytes and the instruction that a table entry makes of them, low byte first (R141). -/
def Build.Spells (bs : List Byte) (i : Instr) : Build → Prop
  | .implied j => bs = [] ∧ j = i
  | .byte f => ∃ b, bs = [b] ∧ f b = i
  | .word f => ∃ a, bs = [loByte a, hiByte a] ∧ f a = i

/-- The default table has the opcode byte of every instruction, and its entry spells the instruction with the other bytes. -/
theorem lookupOp_encode (i : Instr) :
    ∃ op bs b, encode i = op :: bs ∧ lookupOp defaultIsa op = some b ∧ b.Spells bs i := by
  cases i <;> exact ⟨_, _, _, rfl, rfl, by simp [Build.Spells]⟩

/-- An entry of any table decodes the bytes it spells, whatever follows them. -/
theorem decodeWith_of_spells {isa : List IsaRow} {op : Byte} {b : Build} {bs : List Byte} {i : Instr}
    (hb : lookupOp isa op = some b) (h : b.Spells bs i) (rest : List Byte) :
    decodeWith isa (op :: bs ++ rest) = .ok (i, rest) := by
  cases b with
  | implied j =>
    obtain ⟨rfl, rfl⟩ := h
    simp [decodeWith, hb]
  | byte f =>
    obtain ⟨b, rfl, rfl⟩ := h
    simp [decodeWith, hb]
  | word f =>
    obtain ⟨a, rfl, rfl⟩ := h
    simp [decodeWith, hb]

/-- The default table decodes every encoding, whatever follows it (R140, R144). -/
theorem decodeBytes_encode_append (i : Instr) (rest : List Byte) : decodeBytes (encode i ++ rest) = .ok (i, rest) := by
  obtain ⟨op, bs, b, he, hb, hs⟩ := lookupOp_encode i
  rw [he]
  exact decodeWith_of_spells hb hs rest

theorem encode_ne_nil (i : Instr) : encode i ≠ [] := by
  obtain ⟨op, bs, b, he, -, -⟩ := lookupOp_encode i
  simp [he]

namespace Machine

/-- A table that decodes bytes with nothing left over calls for exactly the bytes after the first. -/
theorem operandCount_of_decodeWith {isa : List IsaRow} {op : Byte} {bs : List Byte} {i : Instr}
    (h : decodeWith isa (op :: bs) = .ok (i, [])) : operandCount isa op = bs.length := by
  cases hb : lookupOp isa op with
  | none => simp [decodeWith, hb] at h
  | some b =>
    simp only [decodeWith, hb] at h
    cases b with
    | implied j =>
      cases h
      simp [operandCount, hb, Build.operandBytes]
    | byte f =>
      simp only at h
      split at h <;> cases h
      simp [operandCount, hb, Build.operandBytes]
    | word f =>
      simp only at h
      split at h <;> cases h
      simp [operandCount, hb, Build.operandBytes]

/-- A read of a byte that is no draw and no visible interrupt control register changes nothing (R111). -/
theorem afterRead_eq_self {a : Addr} {v : Byte} {s : State} (hv : busSource a s = some v) (h1 : ¬Claims.readsIcr1 a s)
    (h2 : ¬Claims.readsIcr2 a s) : afterRead a s = s := by
  rcases afterRead_cases a s with ⟨_, _, e⟩ | ⟨_, _, _, hio, ht, _⟩ | ⟨_, _, _, hio, ht, _⟩ | ⟨hn, _⟩
  · exact e
  · obtain ⟨hlo, hhi, hi⟩ := ioTarget_cia1 ht
    exact absurd ⟨hio, hlo, hhi, by bv_omega⟩ h1
  · obtain ⟨hlo, hhi, hi⟩ := ioTarget_cia2 ht
    exact absurd ⟨hio, hlo, hhi, by bv_omega⟩ h2
  · cases hn.symm.trans hv

/-- The fetch reads an instruction whose bytes stand at PC as they stand, and changes nothing (R182). -/
theorem fetchBytes_eq {s : State} {bs : List Byte} {i : Instr} (hne : bs ≠ [])
    (hd : decodeWith s.config.isa bs = .ok (i, []))
    (h : ∀ k b, bs[k]? = some b →
      busByte (s.cpu.pc + BitVec.ofNat 16 k) s = b ∧ afterRead (s.cpu.pc + BitVec.ofNat 16 k) s = s) :
    fetchBytes s = (bs, s) := by
  obtain ⟨op, ops, rfl⟩ := List.exists_cons_of_ne_nil hne
  have hr := readBytes_eq (op :: ops) s.cpu.pc s h
  have h0 := h 0 op rfl
  simp only [BitVec.add_zero] at h0
  simpa only [fetchBytes, memRead, h0.1, operandCount_of_decodeWith hd, List.length_cons, readBytes] using hr

/-- In a running state off the breakpoint a decoded fetch is executed (R181). -/
theorem step_of_decode {s : State} (hs : Claims.canFetch s) {i : Instr} {rest : List Byte}
    (hd : decodeWith s.config.isa (fetchBytes s).1 = .ok (i, rest)) :
    ∃ t, exec i (fetchBytes s).2 = .next t ∧ step s = .next (finishStep t) := by
  obtain ⟨hrun, hbp⟩ := hs
  obtain ⟨t, ht⟩ := exec_next i (fetchBytes s).2
  exact ⟨t, ht, by simp [step, hrun, hbp, hd, ht]⟩

/-- Settles O5: such bytes are fetched as they stand and the fetch leaves the state itself, so the step is the instruction's. -/
theorem stepRunsTheInstructionInMemory : Obligations.StepRunsTheInstructionInMemory := by
  refine ⟨fun s i hisa => ?_, fun s i hs hd hbytes => ?_⟩
  · rw [hisa]
    simpa [decodeBytes] using decodeBytes_encode_append i []
  · have hf : fetchBytes s = (encode i, s) := fetchBytes_eq (encode_ne_nil i) hd fun k b hk => by
      obtain ⟨hsrc, hicr1, hicr2⟩ := hbytes k b hk
      exact ⟨by simp [busByte, hsrc], afterRead_eq_self hsrc hicr1 hicr2⟩
    simpa only [hf] using step_of_decode hs (i := i) (rest := []) (by rw [hf]; exact hd)

end Machine

end Sys2Proof

namespace Sys2Proof.Claims

open Machine

/-! ### The claims' operands and tables, tied to the machine -/

/-- The machine's operand of a form. -/
def Form.operand (s : State) : Form → Operand
  | .zp z => opZp z s
  | .zpx z => opZpx z s
  | .zpy z => opZpy z s
  | .abs a => opAbs a s
  | .absx a => opAbsx a s
  | .absy a => opAbsy a s
  | .indx z => opIndx z s
  | .indy z => opIndy z s

/-- It is at the claims' effective address, and resolving it leaves the state itself (R152 to R158). -/
theorem Form.operand_eq (f : Form) (s : State) : f.operand s = ⟨f.ea s, f.crossed s, s⟩ := by
  cases f with
  | zp z => exact opZp_eq z s
  | zpx z => exact opZpx_eq z s
  | zpy z => exact opZpy_eq z s
  | abs a => exact opAbs_eq a s
  | absx a => exact opAbsx_eq a s
  | absy a => exact opAbsy_eq a s
  | indx z => exact opIndx_eq z s
  | indy z =>
    rw [operand, opIndy_eq]
    simp only [ea, crossed, pointer, Nat.mod_eq_of_lt z.isLt]

theorem Form.mode_length (f : Form) : f.mode.length = f.length := by cases f <;> rfl

end Sys2Proof.Claims

namespace Sys2Proof.Machine

open Claims

/-- The registers a reading mnemonic leaves after reading `v`, PC aside (R211 to R213, R251, R252, R255 to R257, R281 to R284). -/
def readCpu (m : Mnemonic) (v : Byte) (c : Cpu) : Cpu :=
  match m with
  | .lda => { c with a := v, p := c.p.setNZ v }
  | .ldx => { c with x := v, p := c.p.setNZ v }
  | .ldy => { c with y := v, p := c.p.setNZ v }
  | .adc => { c with a := (adcResult c.p c.a v).r, p := c.p.setNVZC (adcResult c.p c.a v) }
  | .sbc => { c with a := (sbcResult c.p c.a v).r, p := c.p.setNVZC (sbcResult c.p c.a v) }
  | .cmp => { c with p := c.p.compare c.a v }
  | .cpx => { c with p := c.p.compare c.x v }
  | .cpy => { c with p := c.p.compare c.y v }
  | .and => { c with a := c.a &&& v, p := c.p.setNZ (c.a &&& v) }
  | .ora => { c with a := c.a ||| v, p := c.p.setNZ (c.a ||| v) }
  | .eor => { c with a := c.a ^^^ v, p := c.p.setNZ (c.a ^^^ v) }
  | .bit => { c with p := c.p.bitTest c.a v }
  | _ => c

/-- What a reading mnemonic does with the byte it read. -/
def readOp (m : Mnemonic) (v : Byte) (s : State) : State := { s with cpu := readCpu m v s.cpu }

/-- A reading instruction on its source: an immediate byte, or one read at the operand. -/
def readRun (m : Mnemonic) (s : State) : Source → State
  | .imm v => retire m .imm false (readOp m v s)
  | .mem f => readRetire m f.mode (readOp m) (f.operand s)

/-- Each row of the table is the machine's own meaning of its instruction. -/
theorem exec_readInstr_run {m : Mnemonic} {src : Source} {op : Byte} {i : Instr} (h : readInstr m src = some (op, i)) (s : State) :
    exec i s = .next (readRun m s src) := by
  unfold readInstr at h
  split at h <;> cases h <;> rfl

theorem readCpu_pc (m : Mnemonic) (v : Byte) (c : Cpu) : (readCpu m v c).pc = c.pc := by cases m <;> rfl

theorem readRun_eq (m : Mnemonic) (src : Source) (s : State) :
    readRun m s src = readDone m src s (readCpu m (src.value s) s.cpu) := by
  cases src with
  | imm v =>
    simp only [readRun, retire, readOp, readCpu_pc]
    rfl
  | mem f =>
    simp only [readRun, readRetire, f.operand_eq, readOperand, retire, readOp, readDone, afterRead_cpu, readCpu_pc, f.mode_length,
      instrCycles, State.setPc, State.setReported, afterRead_config, Source.length, Source.value, Source.after, Source.cycles,
      Form.cycles]

/-- A reading instruction reads its source once, and leaves the registers of `readCpu`. -/
theorem exec_readInstr {m : Mnemonic} {src : Source} {op : Byte} {i : Instr} (h : readInstr m src = some (op, i)) (s : State) :
    exec i s = .next (readDone m src s (readCpu m (src.value s) s.cpu)) := by
  rw [exec_readInstr_run h, readRun_eq]

/-- The register a store writes (R214 to R216). -/
def storeByte (m : Mnemonic) (c : Cpu) : Byte :=
  match m with
  | .stx => c.x
  | .sty => c.y
  | _ => c.a

theorem exec_storeInstr {m : Mnemonic} {f : Form} {op : Byte} {i : Instr} (h : storeInstr m f = some (op, i)) (s : State) :
    exec i s = .next (retire m f.mode (f.crossed s) (memWrite (f.ea s) (storeByte m s.cpu) s)) := by
  have hrun : exec i s = .next (storeRetire m f.mode (storeByte m s.cpu) (f.operand s)) := by
    unfold storeInstr at h
    split at h <;> cases h <;> rfl
  rw [hrun, Form.operand_eq]
  rfl

/-- The result and the carry of a shift (R285 to R288). -/
def shiftOf : Mnemonic → Flags → Byte → Byte × Bool
  | .lsr => lsrShift
  | .rol => rolShift
  | .ror => rorShift
  | _ => aslShift

/-- The byte a read-modify-write stores (R258, R259, R285 to R288). -/
def modifyByte : Mnemonic → Flags → Byte → Byte
  | .inc => incByte
  | .dec => decByte
  | m => fun p v => (shiftOf m p v).1

/-- The flags it leaves. -/
def modifyP : Mnemonic → Flags → Byte → Flags
  | .inc => incFlags
  | .dec => decFlags
  | m => fun p v => p.shift (shiftOf m p v)

theorem exec_modifyInstr {m : Mnemonic} {f : Form} {op : Byte} {i : Instr} (h : modifyInstr m f = some (op, i)) (s : State) :
    let v := busByte (f.ea s) s
    exec i s = .next (retire m f.mode (f.crossed s)
      ((memWrite (f.ea s) (modifyByte m s.cpu.p v) (afterRead (f.ea s) s)).setP (modifyP m s.cpu.p v))) := by
  have hrun : exec i s = .next (modifyRetire m f.mode (modifyByte m) (modifyP m) (f.operand s)) := by
    unfold modifyInstr at h
    split at h <;> cases h <;> rfl
  simp only [hrun, Form.operand_eq, modifyRetire, modifyOperand, afterRead_cpu]

/-- N and Z of a result, as the claims and as the machine compute them (R210). -/
theorem nz_eq (v : Byte) (p : Flags) : nz v p = p.setNZ v := by
  rw [nz, Flags.setNZ, getLsbD_seven]
  rfl

theorem exec_shiftAccInstr {m : Mnemonic} {op : Byte} {i : Instr} (h : shiftAccInstr m = some (op, i)) (s : State) :
    exec i s = .next (retire m .acc false (shiftA (shiftOf m) s)) := by
  unfold shiftAccInstr at h
  split at h <;> cases h <;> rfl

theorem exec_registerInstr {m : Mnemonic} {op : Byte} {i : Instr} {c : Cpu} {s : State}
    (h : registerInstr s.cpu m = some (op, i, c)) : exec i s = .next (retire m .imp false { s with cpu := c }) := by
  simp only [registerInstr, nz_eq] at h
  split at h <;> cases h <;> rfl

theorem exec_flagInstr {m : Mnemonic} {op : Byte} {i : Instr} {p : Flags} {s : State}
    (h : flagInstr s.cpu.p m = some (op, i, p)) : exec i s = .next (retire m .imp false (s.setP p)) := by
  unfold flagInstr at h
  split at h <;> cases h <;> rfl

theorem exec_branchInstr {m : Mnemonic} {op : Byte} {mk : Byte → Instr} {cond : Flags → Bool}
    (h : branchInstr m = some (op, mk, cond)) (off : Byte) (s : State) :
    exec (mk off) s = .next (branch m (cond s.cpu.p) off s) := by
  unfold branchInstr at h
  split at h <;> cases h <;> rfl

/-! ### The forms and mnemonics of the tables -/

theorem encode_length (i : Instr) : (encode i).length = i.mode.length := by cases i <;> rfl

theorem readInstr_form {m : Mnemonic} {src : Source} {op : Byte} {i : Instr} (h : readInstr m src = some (op, i)) :
    i.mnemonic = m ∧ (encode i).length = src.length ∧ m ∈ nzWriters := by
  unfold readInstr at h
  split at h <;> cases h <;> exact ⟨rfl, rfl, by decide⟩

theorem storeInstr_form {m : Mnemonic} {f : Form} {op : Byte} {i : Instr} (h : storeInstr m f = some (op, i)) :
    i.mnemonic = m ∧ i.mode = f.mode ∧ m ∈ writers := by
  unfold storeInstr at h
  split at h <;> cases h <;> exact ⟨rfl, rfl, by decide⟩

theorem modifyInstr_form {m : Mnemonic} {f : Form} {op : Byte} {i : Instr} (h : modifyInstr m f = some (op, i)) :
    i.mnemonic = m ∧ i.mode = f.mode ∧ m ∈ [.inc, .dec, .asl, .lsr, .rol, .ror] := by
  unfold modifyInstr at h
  split at h <;> cases h <;> exact ⟨rfl, rfl, by decide⟩

theorem shiftAccInstr_form {m : Mnemonic} {op : Byte} {i : Instr} (h : shiftAccInstr m = some (op, i)) :
    i.mnemonic = m ∧ i.mode = .acc ∧ m ∈ [.asl, .lsr, .rol, .ror] := by
  unfold shiftAccInstr at h
  split at h <;> cases h <;> exact ⟨rfl, rfl, by decide⟩

theorem registerInstr_mode {m : Mnemonic} {op : Byte} {i : Instr} {c d : Cpu} (h : registerInstr c m = some (op, i, d)) :
    i.mode = .imp ∧ d.pc = c.pc := by
  unfold registerInstr at h
  split at h <;> cases h <;> exact ⟨rfl, rfl⟩

theorem flagInstr_mode {m : Mnemonic} {op : Byte} {i : Instr} {p q : Flags} (h : flagInstr p m = some (op, i, q)) :
    i.mode = .imp := by
  unfold flagInstr at h
  split at h <;> cases h <;> rfl

theorem branchInstr_transfers {m : Mnemonic} {op : Byte} {mk : Byte → Instr} {cond : Flags → Bool}
    (h : branchInstr m = some (op, mk, cond)) (off : Byte) : (mk off).mnemonic ∈ transfers := by
  unfold branchInstr at h
  split at h <;> cases h <;> simp [Instr.mnemonic, Instr.form, transfers]

/-! ### The frame of the reading instructions -/

section readCpu

variable {m : Mnemonic} (v : Byte) (c : Cpu)

theorem readCpu_sp : (readCpu m v c).sp = c.sp := by cases m <;> rfl

theorem readCpu_d : (readCpu m v c).p.d = c.p.d := by cases m <;> rfl

theorem readCpu_i : (readCpu m v c).p.i = c.p.i := by cases m <;> rfl

theorem readCpu_a (h : m ∉ [.lda, .adc, .sbc, .and, .ora, .eor]) : (readCpu m v c).a = c.a := by
  cases m <;> simp_all [readCpu]

theorem readCpu_x (h : m ≠ .ldx) : (readCpu m v c).x = c.x := by
  cases m <;> simp_all [readCpu]

theorem readCpu_y (h : m ≠ .ldy) : (readCpu m v c).y = c.y := by
  cases m <;> simp_all [readCpu]

theorem readCpu_v (h : m ∉ [.adc, .sbc, .bit]) : (readCpu m v c).p.v = c.p.v := by
  cases m <;> simp_all [readCpu, Flags.setNZ, Flags.compare]

theorem readCpu_c (h : m ∉ [.adc, .sbc, .cmp, .cpx, .cpy]) : (readCpu m v c).p.c = c.p.c := by
  cases m <;> simp_all [readCpu, Flags.setNZ, Flags.bitTest]

end readCpu

section readDone

variable (m : Mnemonic) (src : Source) (s : State) (c : Cpu)

@[simp] theorem readDone_bus : (readDone m src s c).bus = s.bus := by
  cases src <;> simp [readDone, Source.after]

@[simp] theorem readDone_vic : (readDone m src s c).vic = s.vic := by
  cases src <;> simp [readDone, Source.after]

@[simp] theorem readDone_input : (readDone m src s c).input = s.input := by
  cases src <;> simp [readDone, Source.after]

@[simp] theorem readDone_engine : (readDone m src s c).engine = s.engine := by
  cases src <;> simp [readDone, Source.after]

@[simp] theorem readDone_config : (readDone m src s c).config = s.config := by
  cases src <;> simp [readDone, Source.after]

theorem readDone_cia1 : (readDone m src s c).cia1 = s.cia1 ∨ (readDone m src s c).cia1 = { s.cia1 with icrFlags := 0#5 } := by
  cases src with
  | imm v => exact .inl rfl
  | mem f => exact afterRead_cia1 _ _

theorem readDone_cia2 : (readDone m src s c).cia2 = s.cia2 ∨ (readDone m src s c).cia2 = { s.cia2 with icrFlags := 0#5 } := by
  cases src with
  | imm v => exact .inl rfl
  | mem f => exact afterRead_cia2 _ _

end readDone

/-- Settles O43: the read leaves the bus as it is and clears at most one chip's flags, and `readCpu` writes the named registers only. -/
theorem readingInstructionsFrame : Obligations.ReadingInstructionsFrame := by
  intro m src op i s t hi ht
  cases ht.symm.trans (exec_readInstr hi s)
  refine ⟨by simp, by simp, by simp, by simp, by simp, by simp, by simp, readDone_cia1 .., readDone_cia2 .., ?_⟩
  exact ⟨readCpu_sp _ _, readCpu_a _ _, readCpu_x _ _, readCpu_y _ _, readCpu_d _ _, readCpu_i _ _, readCpu_v _ _, readCpu_c _ _⟩

/-! ### The frame of the storing instructions -/

/-- A video register of the I/O window is below 0xD400 (R103). -/
theorem ioTarget_vic {a : Addr} {i : BitVec 6} (h : ioTarget a = .vic i) : a.toNat < 0xD400 := by
  unfold ioTarget at h
  grind

/-- A colour cell of the I/O window is at 0xD800 plus its index (R103). -/
theorem ioTarget_color {a : Addr} {i : BitVec 10} (h : ioTarget a = .color i) : a.toNat = 0xD800 + i.toNat := by
  unfold ioTarget at h
  grind

/-- From `s` to `t` a store may have happened at `a` alone: RAM reads the same elsewhere, and the latch, colour RAM and each chip are
the same unless `a` selects them in `s`. -/
structure StoredAt (a : Addr) (s t : State) : Prop where
  ram : ∀ b : Addr, b ≠ a → ramByte b t.bus.ram = ramByte b s.bus.ram
  color : ∀ j : BitVec 10, ¬(resolve a s.bus.bank = .io ∧ a.toNat = 0xD800 + j.toNat) →
    colorCell j t.bus.colorRam = colorCell j s.bus.colorRam
  bank : a ≠ 0x0001#16 → t.bus.bank = s.bus.bank
  cart : t.bus.cart = s.bus.cart
  input : t.input = s.input
  engine : t.engine = s.engine
  config : t.config = s.config
  vic : ¬(resolve a s.bus.bank = .io ∧ a.toNat < 0xD400) → t.vic = s.vic
  cia1 : ¬(resolve a s.bus.bank = .io ∧ 0xDC00 ≤ a.toNat ∧ a.toNat < 0xDD00) → t.cia1 = s.cia1
  cia2 : ¬(resolve a s.bus.bank = .io ∧ 0xDD00 ≤ a.toNat ∧ a.toNat < 0xDE00) → t.cia2 = s.cia2

namespace StoredAt

theorem memWrite (a : Addr) (v : Byte) (s : State) : StoredAt a s (memWrite a v s) where
  ram _ hb := memWrite_ramByte_other hb v s
  color j hj := by
    rcases memWrite_cases a v s with ⟨_, e⟩ | e | ⟨_, _, _, e⟩ | ⟨i, hio, hi, e⟩ | ⟨_, _, _, e⟩ | ⟨_, _, _, e⟩ | e <;>
      simp only [e, ramWrite, State.setLatch_bus, State.setRam_bus, State.setVic_bus, State.setCia1_bus, State.setCia2_bus]
    refine colorCell_put_other (fun hji => hj ⟨hio, ?_⟩) v _
    rw [hji, ioTarget_color hi]
  bank ha := by
    rcases memWrite_cases a v s with ⟨h, _⟩ | e | ⟨_, _, _, e⟩ | ⟨_, _, _, e⟩ | ⟨_, _, _, e⟩ | ⟨_, _, _, e⟩ | e
    · exact absurd h ha
    all_goals simp [e, ramWrite]
  cart := memWrite_cart a v s
  input := memWrite_input a v s
  engine := memWrite_engine a v s
  config := memWrite_config a v s
  vic h := by
    rcases memWrite_cases a v s with ⟨_, e⟩ | e | ⟨_, hio, hi, _⟩ | ⟨_, _, _, e⟩ | ⟨_, _, _, e⟩ | ⟨_, _, _, e⟩ | e
    case inr.inr.inl => exact absurd ⟨hio, ioTarget_vic hi⟩ h
    all_goals simp [e, ramWrite]
  cia1 h := by
    rcases memWrite_cases a v s with ⟨_, e⟩ | e | ⟨_, _, _, e⟩ | ⟨_, _, _, e⟩ | ⟨_, hio, hi, _⟩ | ⟨_, _, _, e⟩ | e
    case inr.inr.inr.inr.inl => exact absurd ⟨hio, (ioTarget_cia1 hi).1, (ioTarget_cia1 hi).2.1⟩ h
    all_goals simp [e, ramWrite]
  cia2 h := by
    rcases memWrite_cases a v s with ⟨_, e⟩ | e | ⟨_, _, _, e⟩ | ⟨_, _, _, e⟩ | ⟨_, _, _, e⟩ | ⟨_, hio, hi, _⟩ | e
    case inr.inr.inr.inr.inr.inl => exact absurd ⟨hio, (ioTarget_cia2 hi).1, (ioTarget_cia2 hi).2.1⟩ h
    all_goals simp [e, ramWrite]

/-- A read of the same address first: it changes no memory, and a chip only where the address selects it (R111). -/
theorem of_afterRead {a : Addr} {s t : State} (h : StoredAt a (afterRead a s) t) : StoredAt a s t where
  ram := by simpa using h.ram
  color := by simpa using h.color
  bank := by simpa using h.bank
  cart := by simpa using h.cart
  input := by simpa using h.input
  engine := by simpa using h.engine
  config := by simpa using h.config
  vic := by simpa using h.vic
  cia1 hn := (h.cia1 (by simpa using hn)).trans (by
    rcases afterRead_cases a s with ⟨_, _, e⟩ | ⟨_, _, _, hio, hi, _⟩ | ⟨_, _, _, _, _, e⟩ | ⟨_, e⟩
    case inr.inl => exact absurd ⟨hio, (ioTarget_cia1 hi).1, (ioTarget_cia1 hi).2.1⟩ hn
    all_goals simp [e])
  cia2 hn := (h.cia2 (by simpa using hn)).trans (by
    rcases afterRead_cases a s with ⟨_, _, e⟩ | ⟨_, _, _, _, _, e⟩ | ⟨_, _, _, hio, hi, _⟩ | ⟨_, e⟩
    case inr.inr.inl => exact absurd ⟨hio, (ioTarget_cia2 hi).1, (ioTarget_cia2 hi).2.1⟩ hn
    all_goals simp [e])

/-- The registers and the model's own counts are no part of the frame. -/
theorem registers {a : Addr} {s t : State} (h : StoredAt a s t) (c : Cpu) (x : Aux) : StoredAt a s { t with cpu := c, aux := x } :=
  { h with }

end StoredAt

theorem modifyP_v (m : Mnemonic) (p : Flags) (v : Byte) : (modifyP m p v).v = p.v := by cases m <;> rfl

theorem modifyP_d (m : Mnemonic) (p : Flags) (v : Byte) : (modifyP m p v).d = p.d := by cases m <;> rfl

theorem modifyP_i (m : Mnemonic) (p : Flags) (v : Byte) : (modifyP m p v).i = p.i := by cases m <;> rfl

theorem modifyP_c {m : Mnemonic} (h : m ∈ [.inc, .dec]) (p : Flags) (v : Byte) : (modifyP m p v).c = p.c := by
  cases m <;> simp_all [modifyP, incFlags, decFlags, Flags.setNZ]

/-- The one write of a storing instruction, and the read before it, are at the effective address (R117, R149). -/
theorem StoredAt.of_exec {m : Mnemonic} {f : Form} {op : Byte} {i : Instr} {s t : State}
    (hi : storeInstr m f = some (op, i) ∨ modifyInstr m f = some (op, i)) (ht : exec i s = .next t) : StoredAt (f.ea s) s t := by
  rcases hi with hi | hi
  · cases ht.symm.trans (exec_storeInstr hi s)
    exact (memWrite _ _ s).registers _ _
  · cases ht.symm.trans (exec_modifyInstr hi s)
    exact (memWrite _ _ (afterRead (f.ea s) s)).of_afterRead.registers _ _

/-- Settles O44: the accesses are at the effective address only, and of the registers a store writes none and a
read-modify-write its flags only. -/
theorem storingInstructionsFrame : Obligations.StoringInstructionsFrame := by
  intro m f op i s t hi ht
  obtain ⟨hram, hcolor, hbank, hcart, hinput, hengine, hconfig, hvic, hcia1, hcia2⟩ := StoredAt.of_exec hi ht
  refine ⟨hram, hcolor, hbank, hcart, hinput, hengine, hconfig, hvic, hcia1, hcia2, ?_⟩
  rcases hi with hi | hi
  · cases ht.symm.trans (exec_storeInstr hi s)
    simp [retire]
  · cases ht.symm.trans (exec_modifyInstr hi s)
    have hstore : m ∉ [.sta, .stx, .sty] := by
      have hm := (modifyInstr_form hi).2.2
      revert hm
      cases m <;> decide
    refine ⟨?_, ?_, ?_, ?_, modifyP_v .., modifyP_d .., modifyP_i .., fun h => absurd h hstore, fun h => modifyP_c h _ _⟩ <;>
      simp [retire]

/-! ### Every instruction stands in a table -/

/-- The tables of the claims, and the ten instructions outside them: those on the stack and those that transfer control. -/
inductive Family (s : State) : Instr → Prop
  | read {m src op i} (h : readInstr m src = some (op, i)) : Family s i
  | store {m f op i} (h : storeInstr m f = some (op, i)) : Family s i
  | modify {m f op i} (h : modifyInstr m f = some (op, i)) : Family s i
  | shiftAcc {m op i} (h : shiftAccInstr m = some (op, i)) : Family s i
  | register {m op i c} (h : registerInstr s.cpu m = some (op, i, c)) : Family s i
  | flag {m op i p} (h : flagInstr s.cpu.p m = some (op, i, p)) : Family s i
  | branch {m op mk cond} (h : branchInstr m = some (op, mk, cond)) (off : Byte) : Family s (mk off)
  | pha : Family s .pha
  | php : Family s .php
  | pla : Family s .pla
  | plp : Family s .plp
  | jmpAbs (a : Addr) : Family s (.jmpAbs a)
  | jmpInd (a : Addr) : Family s (.jmpInd a)
  | jsr (a : Addr) : Family s (.jsr a)
  | rts : Family s .rts
  | rti : Family s .rti
  | brk : Family s .brk

theorem Family.of_instr (s : State) (i : Instr) : Family s i :=
  match i with
  | .ldaIndx z => .read (m := .lda) (src := .mem (.indx z)) rfl
  | .ldaZp z => .read (m := .lda) (src := .mem (.zp z)) rfl
  | .ldaImm v => .read (m := .lda) (src := .imm v) rfl
  | .ldaAbs a => .read (m := .lda) (src := .mem (.abs a)) rfl
  | .ldaIndy z => .read (m := .lda) (src := .mem (.indy z)) rfl
  | .ldaZpx z => .read (m := .lda) (src := .mem (.zpx z)) rfl
  | .ldaAbsy a => .read (m := .lda) (src := .mem (.absy a)) rfl
  | .ldaAbsx a => .read (m := .lda) (src := .mem (.absx a)) rfl
  | .ldxImm v => .read (m := .ldx) (src := .imm v) rfl
  | .ldxZp z => .read (m := .ldx) (src := .mem (.zp z)) rfl
  | .ldxAbs a => .read (m := .ldx) (src := .mem (.abs a)) rfl
  | .ldxZpy z => .read (m := .ldx) (src := .mem (.zpy z)) rfl
  | .ldxAbsy a => .read (m := .ldx) (src := .mem (.absy a)) rfl
  | .ldyImm v => .read (m := .ldy) (src := .imm v) rfl
  | .ldyZp z => .read (m := .ldy) (src := .mem (.zp z)) rfl
  | .ldyAbs a => .read (m := .ldy) (src := .mem (.abs a)) rfl
  | .ldyZpx z => .read (m := .ldy) (src := .mem (.zpx z)) rfl
  | .ldyAbsx a => .read (m := .ldy) (src := .mem (.absx a)) rfl
  | .staIndx z => .store (m := .sta) (f := .indx z) rfl
  | .staZp z => .store (m := .sta) (f := .zp z) rfl
  | .staAbs a => .store (m := .sta) (f := .abs a) rfl
  | .staIndy z => .store (m := .sta) (f := .indy z) rfl
  | .staZpx z => .store (m := .sta) (f := .zpx z) rfl
  | .staAbsy a => .store (m := .sta) (f := .absy a) rfl
  | .staAbsx a => .store (m := .sta) (f := .absx a) rfl
  | .stxZp z => .store (m := .stx) (f := .zp z) rfl
  | .stxAbs a => .store (m := .stx) (f := .abs a) rfl
  | .stxZpy z => .store (m := .stx) (f := .zpy z) rfl
  | .styZp z => .store (m := .sty) (f := .zp z) rfl
  | .styAbs a => .store (m := .sty) (f := .abs a) rfl
  | .styZpx z => .store (m := .sty) (f := .zpx z) rfl
  | .tax => .register (m := .tax) rfl
  | .tay => .register (m := .tay) rfl
  | .tsx => .register (m := .tsx) rfl
  | .txa => .register (m := .txa) rfl
  | .txs => .register (m := .txs) rfl
  | .tya => .register (m := .tya) rfl
  | .pha => .pha
  | .php => .php
  | .pla => .pla
  | .plp => .plp
  | .adcIndx z => .read (m := .adc) (src := .mem (.indx z)) rfl
  | .adcZp z => .read (m := .adc) (src := .mem (.zp z)) rfl
  | .adcImm v => .read (m := .adc) (src := .imm v) rfl
  | .adcAbs a => .read (m := .adc) (src := .mem (.abs a)) rfl
  | .adcIndy z => .read (m := .adc) (src := .mem (.indy z)) rfl
  | .adcZpx z => .read (m := .adc) (src := .mem (.zpx z)) rfl
  | .adcAbsy a => .read (m := .adc) (src := .mem (.absy a)) rfl
  | .adcAbsx a => .read (m := .adc) (src := .mem (.absx a)) rfl
  | .sbcIndx z => .read (m := .sbc) (src := .mem (.indx z)) rfl
  | .sbcZp z => .read (m := .sbc) (src := .mem (.zp z)) rfl
  | .sbcImm v => .read (m := .sbc) (src := .imm v) rfl
  | .sbcAbs a => .read (m := .sbc) (src := .mem (.abs a)) rfl
  | .sbcIndy z => .read (m := .sbc) (src := .mem (.indy z)) rfl
  | .sbcZpx z => .read (m := .sbc) (src := .mem (.zpx z)) rfl
  | .sbcAbsy a => .read (m := .sbc) (src := .mem (.absy a)) rfl
  | .sbcAbsx a => .read (m := .sbc) (src := .mem (.absx a)) rfl
  | .cmpIndx z => .read (m := .cmp) (src := .mem (.indx z)) rfl
  | .cmpZp z => .read (m := .cmp) (src := .mem (.zp z)) rfl
  | .cmpImm v => .read (m := .cmp) (src := .imm v) rfl
  | .cmpAbs a => .read (m := .cmp) (src := .mem (.abs a)) rfl
  | .cmpIndy z => .read (m := .cmp) (src := .mem (.indy z)) rfl
  | .cmpZpx z => .read (m := .cmp) (src := .mem (.zpx z)) rfl
  | .cmpAbsy a => .read (m := .cmp) (src := .mem (.absy a)) rfl
  | .cmpAbsx a => .read (m := .cmp) (src := .mem (.absx a)) rfl
  | .cpxImm v => .read (m := .cpx) (src := .imm v) rfl
  | .cpxZp z => .read (m := .cpx) (src := .mem (.zp z)) rfl
  | .cpxAbs a => .read (m := .cpx) (src := .mem (.abs a)) rfl
  | .cpyImm v => .read (m := .cpy) (src := .imm v) rfl
  | .cpyZp z => .read (m := .cpy) (src := .mem (.zp z)) rfl
  | .cpyAbs a => .read (m := .cpy) (src := .mem (.abs a)) rfl
  | .incZp z => .modify (m := .inc) (f := .zp z) rfl
  | .incAbs a => .modify (m := .inc) (f := .abs a) rfl
  | .incZpx z => .modify (m := .inc) (f := .zpx z) rfl
  | .incAbsx a => .modify (m := .inc) (f := .absx a) rfl
  | .decZp z => .modify (m := .dec) (f := .zp z) rfl
  | .decAbs a => .modify (m := .dec) (f := .abs a) rfl
  | .decZpx z => .modify (m := .dec) (f := .zpx z) rfl
  | .decAbsx a => .modify (m := .dec) (f := .absx a) rfl
  | .inx => .register (m := .inx) rfl
  | .iny => .register (m := .iny) rfl
  | .dex => .register (m := .dex) rfl
  | .dey => .register (m := .dey) rfl
  | .andIndx z => .read (m := .and) (src := .mem (.indx z)) rfl
  | .andZp z => .read (m := .and) (src := .mem (.zp z)) rfl
  | .andImm v => .read (m := .and) (src := .imm v) rfl
  | .andAbs a => .read (m := .and) (src := .mem (.abs a)) rfl
  | .andIndy z => .read (m := .and) (src := .mem (.indy z)) rfl
  | .andZpx z => .read (m := .and) (src := .mem (.zpx z)) rfl
  | .andAbsy a => .read (m := .and) (src := .mem (.absy a)) rfl
  | .andAbsx a => .read (m := .and) (src := .mem (.absx a)) rfl
  | .oraIndx z => .read (m := .ora) (src := .mem (.indx z)) rfl
  | .oraZp z => .read (m := .ora) (src := .mem (.zp z)) rfl
  | .oraImm v => .read (m := .ora) (src := .imm v) rfl
  | .oraAbs a => .read (m := .ora) (src := .mem (.abs a)) rfl
  | .oraIndy z => .read (m := .ora) (src := .mem (.indy z)) rfl
  | .oraZpx z => .read (m := .ora) (src := .mem (.zpx z)) rfl
  | .oraAbsy a => .read (m := .ora) (src := .mem (.absy a)) rfl
  | .oraAbsx a => .read (m := .ora) (src := .mem (.absx a)) rfl
  | .eorIndx z => .read (m := .eor) (src := .mem (.indx z)) rfl
  | .eorZp z => .read (m := .eor) (src := .mem (.zp z)) rfl
  | .eorImm v => .read (m := .eor) (src := .imm v) rfl
  | .eorAbs a => .read (m := .eor) (src := .mem (.abs a)) rfl
  | .eorIndy z => .read (m := .eor) (src := .mem (.indy z)) rfl
  | .eorZpx z => .read (m := .eor) (src := .mem (.zpx z)) rfl
  | .eorAbsy a => .read (m := .eor) (src := .mem (.absy a)) rfl
  | .eorAbsx a => .read (m := .eor) (src := .mem (.absx a)) rfl
  | .bitZp z => .read (m := .bit) (src := .mem (.zp z)) rfl
  | .bitAbs a => .read (m := .bit) (src := .mem (.abs a)) rfl
  | .aslZp z => .modify (m := .asl) (f := .zp z) rfl
  | .aslAcc => .shiftAcc (m := .asl) rfl
  | .aslAbs a => .modify (m := .asl) (f := .abs a) rfl
  | .aslZpx z => .modify (m := .asl) (f := .zpx z) rfl
  | .aslAbsx a => .modify (m := .asl) (f := .absx a) rfl
  | .lsrZp z => .modify (m := .lsr) (f := .zp z) rfl
  | .lsrAcc => .shiftAcc (m := .lsr) rfl
  | .lsrAbs a => .modify (m := .lsr) (f := .abs a) rfl
  | .lsrZpx z => .modify (m := .lsr) (f := .zpx z) rfl
  | .lsrAbsx a => .modify (m := .lsr) (f := .absx a) rfl
  | .rolZp z => .modify (m := .rol) (f := .zp z) rfl
  | .rolAcc => .shiftAcc (m := .rol) rfl
  | .rolAbs a => .modify (m := .rol) (f := .abs a) rfl
  | .rolZpx z => .modify (m := .rol) (f := .zpx z) rfl
  | .rolAbsx a => .modify (m := .rol) (f := .absx a) rfl
  | .rorZp z => .modify (m := .ror) (f := .zp z) rfl
  | .rorAcc => .shiftAcc (m := .ror) rfl
  | .rorAbs a => .modify (m := .ror) (f := .abs a) rfl
  | .rorZpx z => .modify (m := .ror) (f := .zpx z) rfl
  | .rorAbsx a => .modify (m := .ror) (f := .absx a) rfl
  | .jmpAbs a => .jmpAbs a
  | .jmpInd a => .jmpInd a
  | .jsr a => .jsr a
  | .rts => .rts
  | .rti => .rti
  | .brk => .brk
  | .bcc off => .branch (m := .bcc) rfl off
  | .bcs off => .branch (m := .bcs) rfl off
  | .beq off => .branch (m := .beq) rfl off
  | .bmi off => .branch (m := .bmi) rfl off
  | .bne off => .branch (m := .bne) rfl off
  | .bpl off => .branch (m := .bpl) rfl off
  | .bvc off => .branch (m := .bvc) rfl off
  | .bvs off => .branch (m := .bvs) rfl off
  | .clc => .flag (m := .clc) rfl
  | .cld => .flag (m := .cld) rfl
  | .cli => .flag (m := .cli) rfl
  | .clv => .flag (m := .clv) rfl
  | .sec => .flag (m := .sec) rfl
  | .sed => .flag (m := .sed) rfl
  | .sei => .flag (m := .sei) rfl
  | .nop => .flag (m := .nop) rfl

/-! ### What each instruction writes -/

/-- From `c` to `d` an instruction changes only the flags and registers whose lists of writers it is in (R30, R31, R34). -/
structure CpuListed (i : Instr) (c d : Cpu) : Prop where
  flagN : d.p.n ≠ c.p.n → i.mnemonic ∈ nzWriters
  flagZ : d.p.z ≠ c.p.z → i.mnemonic ∈ nzWriters
  flagV : d.p.v ≠ c.p.v → i.mnemonic ∈ [.adc, .sbc, .bit, .clv, .plp, .rti]
  flagC : d.p.c ≠ c.p.c → i.mnemonic ∈ [.adc, .sbc, .cmp, .cpx, .cpy, .asl, .lsr, .rol, .ror, .clc, .sec, .plp, .rti]
  flagD : d.p.d ≠ c.p.d → i.mnemonic ∈ [.cld, .sed, .plp, .rti]
  flagI : d.p.i ≠ c.p.i → i.mnemonic ∈ [.cli, .sei, .plp, .rti, .brk]
  regA : d.a ≠ c.a → i.mnemonic ∈ [.lda, .pla, .txa, .tya, .adc, .sbc, .and, .ora, .eor] ∨ i.mode = .acc
  regX : d.x ≠ c.x → i.mnemonic ∈ [.ldx, .tax, .tsx, .inx, .dex]
  regY : d.y ≠ c.y → i.mnemonic ∈ [.ldy, .tay, .iny, .dey]
  regS : d.sp ≠ c.sp → i.mnemonic ∈ [.txs, .pha, .php, .pla, .plp, .jsr, .rts, .rti, .brk]

/-- From `s` to `t` an instruction changes only what it is listed for: flags and registers, PC by its length unless it transfers
control (R32), and the bus and the video chip only where it has a write access. -/
structure Listed (i : Instr) (s t : State) : Prop where
  cpu : CpuListed i s.cpu t.cpu
  pc : i.mnemonic ∉ transfers → t.cpu.pc = s.cpu.pc + BitVec.ofNat 16 (encode i).length
  mem : i.mnemonic ∉ writers → t.bus = s.bus ∧ t.vic = s.vic

namespace CpuListed

variable {i : Instr} {c d : Cpu}

/-- A shorter list of writers is inside the listed one. -/
theorem mem_mono {m : Mnemonic} {L K : List Mnemonic} (h : m ∈ L) (hLK : L ⊆ K) : m ∈ K := hLK h

/-- A change outside the listed mnemonics is none. -/
theorem mem_of_ne {α : Type} {x y : α} {m : Mnemonic} {L K : List Mnemonic} (h : m ∉ L → x = y) (hLK : L ⊆ K) :
    x ≠ y → m ∈ K :=
  fun hne => hLK (not_imp_comm.1 h hne)

/-- An instruction that writes S and PC at most. -/
theorem of_sp (hp : d.p = c.p) (ha : d.a = c.a) (hx : d.x = c.x) (hy : d.y = c.y)
    (hs : d.sp = c.sp ∨ i.mnemonic ∈ [.txs, .pha, .php, .pla, .plp, .jsr, .rts, .rti, .brk]) : CpuListed i c d := by
  refine ⟨?_, ?_, ?_, ?_, ?_, ?_, ?_, ?_, ?_, hs.resolve_left⟩ <;> simp [hp, ha, hx, hy]

theorem of_readInstr {m : Mnemonic} {src : Source} {op : Byte} (h : readInstr m src = some (op, i)) (v : Byte) (pc : Addr) :
    CpuListed i c { readCpu m v c with pc := pc } := by
  obtain ⟨rfl, -, hnz⟩ := readInstr_form h
  exact {
    flagN := fun _ => hnz
    flagZ := fun _ => hnz
    flagV := mem_of_ne (readCpu_v v c) (by decide)
    flagC := mem_of_ne (readCpu_c v c) (by decide)
    flagD := absurd (readCpu_d v c)
    flagI := absurd (readCpu_i v c)
    regA := fun hne => .inl (mem_of_ne (readCpu_a v c) (by decide) hne)
    regX := mem_of_ne (fun hn => readCpu_x v c (by simpa using hn)) (L := [.ldx]) (by decide)
    regY := mem_of_ne (fun hn => readCpu_y v c (by simpa using hn)) (L := [.ldy]) (by decide)
    regS := absurd (readCpu_sp v c) }

theorem of_modifyInstr {m : Mnemonic} {f : Form} {op : Byte} (h : modifyInstr m f = some (op, i)) (v : Byte) (pc : Addr) :
    CpuListed i c { c with p := modifyP m c.p v, pc := pc } := by
  obtain ⟨rfl, -, hm⟩ := modifyInstr_form h
  exact {
    flagN := fun _ => mem_mono hm (by decide)
    flagZ := fun _ => mem_mono hm (by decide)
    flagV := absurd (modifyP_v ..)
    flagC := fun hne => by
      have hc : i.mnemonic ∉ [.inc, .dec] := fun hn => hne (modifyP_c hn _ _)
      revert hm hc
      cases i.mnemonic <;> decide
    flagD := absurd (modifyP_d ..)
    flagI := absurd (modifyP_i ..)
    regA := absurd rfl
    regX := absurd rfl
    regY := absurd rfl
    regS := absurd rfl }

theorem of_shiftAccInstr {m : Mnemonic} {op : Byte} (h : shiftAccInstr m = some (op, i)) (x : Byte × Bool) (pc : Addr) :
    CpuListed i c { c with a := x.1, p := c.p.shift x, pc := pc } := by
  obtain ⟨rfl, hmode, hm⟩ := shiftAccInstr_form h
  exact {
    flagN := fun _ => mem_mono hm (by decide)
    flagZ := fun _ => mem_mono hm (by decide)
    flagV := absurd rfl
    flagC := fun _ => mem_mono hm (by decide)
    flagD := absurd rfl
    flagI := absurd rfl
    regA := fun _ => .inr hmode
    regX := absurd rfl
    regY := absurd rfl
    regS := absurd rfl }

theorem of_registerInstr {m : Mnemonic} {op : Byte} (h : registerInstr c m = some (op, i, d)) (pc : Addr) :
    CpuListed i c { d with pc := pc } := by
  unfold registerInstr at h
  split at h <;> cases h <;> constructor <;> simp [Instr.mnemonic, Instr.form, nzWriters, nz]

theorem of_flagInstr {m : Mnemonic} {op : Byte} {q : Flags} (h : flagInstr c.p m = some (op, i, q)) (pc : Addr) :
    CpuListed i c { c with p := q, pc := pc } := by
  unfold flagInstr at h
  split at h <;> cases h <;> constructor <;> simp [Instr.mnemonic, Instr.form]

end CpuListed

/-- Taken or not, a branch writes PC and the report only (R305). -/
theorem branch_frame (m : Mnemonic) (cond : Bool) (off : Byte) (s : State) :
    (branch m cond off s).bus = s.bus ∧ (branch m cond off s).vic = s.vic ∧
      ∃ pc, (branch m cond off s).cpu = { s.cpu with pc := pc } := by
  unfold branch
  cases cond
  · exact ⟨rfl, rfl, _, rfl⟩
  · exact ⟨rfl, rfl, _, rfl⟩

/-- The next state of every instruction differs only where the instruction is listed as a writer. -/
theorem Family.listed {i : Instr} {s t : State} (hf : Family s i) (ht : exec i s = .next t) : Listed i s t := by
  cases hf with
  | read h =>
    cases ht.symm.trans (exec_readInstr h s)
    obtain ⟨rfl, hlen, -⟩ := readInstr_form h
    exact ⟨.of_readInstr h _ _, fun _ => by rw [hlen]; rfl, fun _ => ⟨readDone_bus .., readDone_vic ..⟩⟩
  | store h =>
    cases ht.symm.trans (exec_storeInstr h s)
    obtain ⟨rfl, hmode, hw⟩ := storeInstr_form h
    refine ⟨.of_sp ?_ ?_ ?_ ?_ (.inl ?_), fun _ => ?_, fun hn => absurd hw hn⟩ <;> simp [retire, encode_length, hmode]
  | modify h =>
    cases ht.symm.trans (exec_modifyInstr h s)
    obtain ⟨rfl, hmode, hm⟩ := modifyInstr_form h
    refine ⟨?_, fun _ => ?_, fun hn => absurd (CpuListed.mem_mono hm (by decide)) hn⟩
    · simpa [retire] using CpuListed.of_modifyInstr h _ _
    · simp [retire, encode_length, hmode]
  | shiftAcc h =>
    cases ht.symm.trans (exec_shiftAccInstr h s)
    exact ⟨.of_shiftAccInstr h _ _, fun _ => by rw [encode_length, (shiftAccInstr_form h).2.1]; rfl, fun _ => ⟨rfl, rfl⟩⟩
  | register h =>
    cases ht.symm.trans (exec_registerInstr h)
    obtain ⟨hmode, hpc⟩ := registerInstr_mode h
    exact ⟨.of_registerInstr h _, fun _ => by rw [encode_length, hmode, ← hpc]; rfl, fun _ => ⟨rfl, rfl⟩⟩
  | flag h =>
    cases ht.symm.trans (exec_flagInstr h)
    exact ⟨.of_flagInstr h _, fun _ => by rw [encode_length, flagInstr_mode h]; rfl, fun _ => ⟨rfl, rfl⟩⟩
  | branch h off =>
    cases ht.symm.trans (exec_branchInstr h off s)
    obtain ⟨hbus, hvic, pc, hcpu⟩ := branch_frame _ _ off s
    refine ⟨?_, fun hn => absurd (branchInstr_transfers h off) hn, fun _ => ⟨hbus, hvic⟩⟩
    rw [hcpu]
    exact .of_sp rfl rfl rfl rfl (.inl rfl)
  | pha =>
    cases ht
    rw [push_eq]
    exact ⟨.of_sp rfl rfl rfl rfl (.inr (by decide)), fun _ => rfl, fun hn => absurd (by decide) hn⟩
  | php =>
    cases ht
    rw [push_eq]
    exact ⟨.of_sp rfl rfl rfl rfl (.inr (by decide)), fun _ => rfl, fun hn => absurd (by decide) hn⟩
  | pla =>
    cases ht
    rw [pullA, pull_eq]
    refine ⟨?_, fun _ => rfl, fun _ => ⟨rfl, rfl⟩⟩
    constructor <;> simp [retire, State.setNZ, Flags.setNZ, Instr.mnemonic, Instr.form, nzWriters]
  | plp =>
    cases ht
    rw [pullP, pull_eq]
    refine ⟨?_, fun _ => rfl, fun _ => ⟨rfl, rfl⟩⟩
    constructor <;> simp [retire, Instr.mnemonic, Instr.form, nzWriters]
  | jmpAbs a =>
    cases ht
    exact ⟨.of_sp rfl rfl rfl rfl (.inl rfl), fun hn => absurd (show Mnemonic.jmp ∈ transfers by decide) hn, fun _ => ⟨rfl, rfl⟩⟩
  | jmpInd a =>
    cases ht
    refine ⟨.of_sp ?_ ?_ ?_ ?_ (.inl ?_), fun hn => absurd (show Mnemonic.jmp ∈ transfers by decide) hn, fun _ => ⟨?_, ?_⟩⟩ <;>
      simp [jumpIndirect, indirectTarget, memRead, jumpTo]
  | jsr a =>
    cases ht
    rw [callSubroutine, pushWord_eq]
    exact ⟨.of_sp rfl rfl rfl rfl (.inr (show Mnemonic.jsr ∈ _ by decide)),
      fun hn => absurd (show Mnemonic.jsr ∈ transfers by decide) hn, fun hn => absurd (show Mnemonic.jsr ∈ writers by decide) hn⟩
  | rts =>
    cases ht
    rw [returnFromSubroutine, pullWord_eq]
    exact ⟨.of_sp rfl rfl rfl rfl (.inr (by decide)), fun hn => absurd (by decide) hn, fun _ => ⟨rfl, rfl⟩⟩
  | rti =>
    cases ht
    rw [returnFromException_eq]
    refine ⟨?_, fun hn => absurd (by decide) hn, fun _ => ⟨rfl, rfl⟩⟩
    constructor <;> simp [Instr.mnemonic, Instr.form, nzWriters]
  | brk =>
    cases ht
    rw [takeException_eq (by decide) (by decide)]
    refine ⟨?_, fun hn => absurd (by decide) hn, fun hn => absurd (by decide) hn⟩
    constructor <;> simp [Instr.mnemonic, Instr.form]

theorem exec_listed {i : Instr} {s t : State} (h : exec i s = .next t) : Listed i s t := (Family.of_instr s i).listed h

/-- Settles O45: the six flag lists of `CpuListed`, for every instruction's family. -/
theorem flagsAreWrittenByTheListedInstructions : Obligations.FlagsAreWrittenByTheListedInstructions := by
  intro i s t h
  obtain ⟨hn, hz, hv, hc, hd, hi, -, -, -, -⟩ := (exec_listed h).cpu
  exact ⟨hn, hz, hv, hc, hd, hi⟩

/-- Settles O46: the register lists of `CpuListed`, and the PC and memory clauses of `Listed`. -/
theorem registersAndMemoryAreWrittenByTheListed : Obligations.RegistersAndMemoryAreWrittenByTheListed := by
  intro i s t h
  obtain ⟨⟨-, -, -, -, -, -, ha, hx, hy, hsp⟩, hpc, hmem⟩ := exec_listed h
  refine ⟨ha, hx, hy, hsp, hpc, fun hw => ?_⟩
  obtain ⟨hbus, hvic⟩ := hmem hw
  exact ⟨hbus, hvic, fun a => by rw [hbus]⟩

end Sys2Proof.Machine

namespace Sys2Proof.Machine

open Claims

/-! ### The bank configuration -/

theorem toNat_getLsbD (v : Byte) (k : Nat) : (v.getLsbD k).toNat = v.toNat / 2 ^ k % 2 := Nat.toNat_testBit v.toNat k

/-- The mode number in the bank bits that `resolve` tests (R101, R102). -/
theorem bankMode_eq (b : BankState) :
    bankMode b =
      16 * b.exrom.toNat + 8 * b.game.toNat + 4 * (b.latch.getLsbD 2).toNat + 2 * (b.latch.getLsbD 1).toNat +
        (b.latch.getLsbD 0).toNat := by
  simp only [bankMode, toNat_getLsbD, Nat.pow_zero, Nat.pow_one, Nat.div_one, Nat.reducePow]

/-- A table row agrees with a choice by range when it agrees in each range. -/
theorem getElem?_ite_index {p : Prop} [Decidable p] {row : List Region} {j k : Nat} {r q : Region} (hj : row[j]? = some r)
    (hk : row[k]? = some q) : row[if p then j else k]? = some (if p then r else q) := by
  split
  · exact hj
  · exact hk

/-- Settles O21: in each of the seven ranges both sides are functions of the five bank bits, compared at their 32 values. -/
theorem regionTable : Obligations.RegionTable := by
  rintro a ⟨latch, game, exrom⟩
  rw [bankMode_eq]
  unfold addressRange resolve BankState.ultimax
  dsimp only
  generalize latch.getLsbD 0 = l, latch.getLsbD 1 = h, latch.getLsbD 2 = c
  iterate 6
    refine getElem?_ite_index ?_ ?_
    · revert l h c game exrom
      decide
  revert l h c game exrom
  decide

/-! ### What a read returns -/

section

variable {a : Addr} {s : State}

/-- The latch's address is RAM in every bank configuration, so no other region covers it (R101). -/
theorem ne_latch_of_resolve {b : BankState} {r : Region} (hr : resolve a b = r) (hne : r ≠ .ram) : a ≠ 0x0001#16 := by
  rintro rfl
  exact hne hr.symm

theorem busSource_ram (ha : a ≠ 0x0001#16) (hr : resolve a s.bus.bank = .ram) : busSource a s = some (ramByte a s.bus.ram) := by
  rw [busSource, if_neg ha, hr]

theorem busSource_io (ha : a ≠ 0x0001#16) (hr : resolve a s.bus.bank = .io) : busSource a s = ioRead a s := by
  rw [busSource, if_neg ha, hr]

theorem busSource_cart (ha : a ≠ 0x0001#16) (hr : resolve a s.bus.bank = .roml ∨ resolve a s.bus.bank = .romh) :
    busSource a s = cartByte a s.bus.cart := by
  rcases hr with hr | hr <;> rw [busSource, if_neg ha, hr]

/-- The offset of an address in a window, as the ROM indices take it. -/
theorem setWidth_sub_eq_ofNat {b : Addr} (w : Nat) (h : b ≤ a) : (a - b).setWidth w = BitVec.ofNat w (a.toNat - b.toNat) :=
  BitVec.eq_of_toNat_eq (by simp [BitVec.toNat_sub_of_le h])

end

/-- Settles O22: one equation of `busSource` for each region, and of `ioRead` for each range of the window. -/
theorem readReturnsTheVisibleByte : Obligations.ReadReturnsTheVisibleByte := by
  refine fun a s => ⟨rfl, fun ha => ⟨busSource_ram ha, ?basic, ?kernal, ?char, ?unmapped, ?cart, ?io⟩⟩
  case basic =>
    intro hr
    have hplace : placeOf a.toNat .basic := hr ▸ resolve_place a s.bus.bank
    rw [busSource, if_neg ha, hr]
    exact congrArg (some ∘ Config.romBasic) (setWidth_sub_eq_ofNat 13 hplace.1)
  case kernal =>
    intro hr
    have hplace : placeOf a.toNat .kernal := hr ▸ resolve_place a s.bus.bank
    rw [busSource, if_neg ha, hr]
    exact congrArg (some ∘ Config.romKernal) (setWidth_sub_eq_ofNat 13 hplace)
  case char =>
    intro hr
    have hplace : placeOf a.toNat .char := hr ▸ resolve_place a s.bus.bank
    rw [busSource, if_neg ha, hr]
    exact congrArg (some ∘ Config.romChar) (setWidth_sub_eq_ofNat 12 hplace.1)
  case unmapped =>
    intro hr
    rw [busSource, if_neg ha, hr]
  case cart =>
    intro hr
    rw [busSource_cart ha hr]
    refine ⟨fun c hc hle => ?_, fun c hc hlt => ?_, fun hc => ?_⟩
    · rw [hc, cartByte, if_pos hle]
    · rw [hc, cartByte, if_neg (Nat.not_le.2 hlt)]
    · rw [hc, cartByte]
  case io =>
    intro hr
    obtain ⟨hvic, hsound, hcolor, hcia1, hcia2, hexp⟩ := ioTarget_cases a
    rw [busSource_io ha hr, ioRead]
    refine ⟨fun h => ?_, fun h1 h2 => ?_, fun h1 h2 => ?_, fun h1 h2 => ?_, fun h1 h2 => ?_, fun h => ?_⟩
    · rw [hvic h]
    · rw [hsound h1 h2]
    · rw [hcolor h1 h2]
    · rw [hcia1 h1 h2]
    · rw [hcia2 h1 h2]
    · rw [hexp h]

/-! ### What a read changes -/

section

variable {a : Addr} {s : State}

/-- CIA1's interrupt control register is index 0x0D of page 0xDC in the visible I/O window (R103). -/
theorem readsIcr1_iff : readsIcr1 a s ↔ resolve a s.bus.bank = .io ∧ ioTarget a = .cia1 0xD#4 := by
  refine ⟨fun ⟨hio, hlo, hhi, hi⟩ => ⟨hio, ?_⟩, fun ⟨hio, ht⟩ => ?_⟩
  · obtain ⟨-, -, -, hcia1, -, -⟩ := ioTarget_cases a
    rw [hcia1 hlo hhi, hi]
  · obtain ⟨hlo, hhi, hi⟩ := ioTarget_cia1 ht
    exact ⟨hio, hlo, hhi, by bv_omega⟩

/-- The same for CIA2 in page 0xDD. -/
theorem readsIcr2_iff : readsIcr2 a s ↔ resolve a s.bus.bank = .io ∧ ioTarget a = .cia2 0xD#4 := by
  refine ⟨fun ⟨hio, hlo, hhi, hi⟩ => ⟨hio, ?_⟩, fun ⟨hio, ht⟩ => ?_⟩
  · obtain ⟨-, -, -, -, hcia2, -⟩ := ioTarget_cases a
    rw [hcia2 hlo hhi, hi]
  · obtain ⟨hlo, hhi, hi⟩ := ioTarget_cia2 ht
    exact ⟨hio, hlo, hhi, by bv_omega⟩

theorem afterRead_icr1 (h : readsIcr1 a s) : afterRead a s = s.setCia1 { s.cia1 with icrFlags := 0#5 } := by
  obtain ⟨hr, ht⟩ := readsIcr1_iff.1 h
  have ha := ne_latch_of_resolve hr (by decide)
  obtain ⟨v, hv⟩ := busSource_icr ha hr (.inl ht)
  simp [afterRead, hv, readEffect, ha, hr, ht, Cia.afterRead]

theorem afterRead_icr2 (h : readsIcr2 a s) : afterRead a s = s.setCia2 { s.cia2 with icrFlags := 0#5 } := by
  obtain ⟨hr, ht⟩ := readsIcr2_iff.1 h
  have ha := ne_latch_of_resolve hr (by decide)
  obtain ⟨v, hv⟩ := busSource_icr ha hr (.inr ht)
  simp [afterRead, hv, readEffect, ha, hr, ht, Cia.afterRead]

/-- A read of a draw takes it and changes nothing else (log 4). -/
theorem afterRead_draw (h : busSource a s = none) : afterRead a s = s.setDraws (s.aux.draws + 1) := by
  rcases afterRead_cases a s with ⟨_, hv, _⟩ | ⟨_, hv, _⟩ | ⟨_, hv, _⟩ | ⟨_, e⟩
  case inr.inr.inr => exact e
  all_goals cases h.symm.trans hv

end

/-- Settles O23: the read is one of an interrupt control register, of another byte, or of a draw. -/
theorem onlyIcrReadsHaveAnEffect : Obligations.OnlyIcrReadsHaveAnEffect := by
  refine fun a s => ⟨afterRead_icr1, afterRead_icr2, fun h1 h2 => ?_⟩
  cases hv : busSource a s with
  | some v => exact afterRead_eq_self hv h1 h2
  | none => exact afterRead_draw hv

/-! ### What a write changes -/

section

variable {a : Addr} {s : State}

theorem memWrite_io (hr : resolve a s.bus.bank = .io) (v : Byte) : memWrite a v s = ioWrite a v s := by
  rw [memWrite, if_neg (ne_latch_of_resolve hr (by decide)), hr]

theorem memWrite_unmapped (ha : a ≠ 0x0001#16) (hr : resolve a s.bus.bank = .unmapped) (v : Byte) : memWrite a v s = s := by
  rw [memWrite, if_neg ha, hr]

theorem memWrite_ramUnder (ha : a ≠ 0x0001#16) (hr : resolve a s.bus.bank ∈ [.ram, .basic, .kernal, .char]) (v : Byte) :
    memWrite a v s = ramWrite a v s := by
  simp only [List.mem_cons, List.not_mem_nil, or_false] at hr
  rcases hr with hr | hr | hr | hr <;> rw [memWrite, if_neg ha, hr]

theorem memWrite_cartWindow (ha : a ≠ 0x0001#16) (hr : resolve a s.bus.bank ∈ [.roml, .romh]) (v : Byte) :
    memWrite a v s = if s.bus.bank.ultimax then s else ramWrite a v s := by
  simp only [List.mem_cons, List.not_mem_nil, or_false] at hr
  rcases hr with hr | hr <;> rw [memWrite, if_neg ha, hr]

/-- Ultimax in the two lines (R101). -/
theorem ultimax_iff (b : BankState) : b.ultimax = true ↔ b.exrom = true ∧ b.game = false := by
  simp [BankState.ultimax]

end

/-- The index of a colour cell is its offset in the window (R103). -/
theorem toNat_colorIndex {a : Addr} (h1 : 0xD800 ≤ a.toNat) (h2 : a.toNat < 0xDC00) :
    (BitVec.ofNat 10 (a.toNat - 0xD800)).toNat = a.toNat - 0xD800 := by
  rw [BitVec.toNat_ofNat, Nat.mod_eq_of_lt (by omega)]

/-- Settles O24: one equation of `memWrite` for each kind of region, and of `ioWrite` for each range of the window. -/
theorem writeReachesOneStore : Obligations.WriteReachesOneStore := by
  refine fun a v s => ⟨rfl, fun ha => ⟨fun hr => memWrite_ramUnder ha hr v, fun hr => memWrite_unmapped ha hr v, ?cart, ?io⟩⟩
  case cart =>
    intro hr
    simp only [memWrite_cartWindow ha hr, ultimax_iff]
    rfl
  case io =>
    intro hr
    obtain ⟨hvic, hsound, hcolor, hcia1, hcia2, hexp⟩ := ioTarget_cases a
    rw [memWrite_io hr, ioWrite]
    refine ⟨fun h => ?_, fun h1 h2 => ?_, fun h1 h2 => ?_, fun h1 h2 => ?_, fun h1 h2 => ?_, fun h => ?_⟩
    · rw [hvic h]
      rfl
    · rw [hsound h1 h2]
    · simp only [hcolor h1 h2, toNat_colorIndex h1 h2]
      rfl
    · rw [hcia1 h1 h2]
      rfl
    · rw [hcia2 h1 h2]
      rfl
    · rw [hexp h]

/-! ### A read after a write -/

section

variable {a : Addr} {s t : State}

/-- Where no store is visible a read depends on the bank state and the cartridge only. -/
theorem busSource_congr_of_resolve (ha : a ≠ 0x0001#16)
    (hr : resolve a s.bus.bank ∈ [.basic, .kernal, .char, .roml, .romh, .unmapped]) (hbank : t.bus.bank = s.bus.bank)
    (hcart : t.bus.cart = s.bus.cart) : busSource a t = busSource a s := by
  simp only [List.mem_cons, List.not_mem_nil, or_false] at hr
  rcases hr with hr | hr | hr | hr | hr | hr <;> simp only [busSource, if_neg ha, hbank, hcart, hr]

/-- The ranges of the window with nothing modelled behind them (R103, R110). -/
theorem ioTarget_open (h : (0xD400 ≤ a.toNat ∧ a.toNat < 0xD800) ∨ 0xDE00 ≤ a.toNat) :
    ioTarget a = .sound ∨ ioTarget a = .expansion := by
  obtain ⟨-, hsound, -, -, -, hexp⟩ := ioTarget_cases a
  rcases h with ⟨h1, h2⟩ | h
  · exact .inl (hsound h1 h2)
  · exact .inr (hexp h)

theorem busSource_memWrite_ram (ha : a ≠ 0x0001#16) (hr : resolve a s.bus.bank = .ram) (v : Byte) :
    busSource a (memWrite a v s) = some v := by
  rw [memWrite_ramUnder ha (by simp [hr]), busSource_ram ha (by simpa [ramWrite] using hr)]
  exact congrArg some (ramByte_put_same a v _)

theorem busSource_memWrite_color (hr : resolve a s.bus.bank = .io) (h1 : 0xD800 ≤ a.toNat) (h2 : a.toNat < 0xDC00) (v : Byte) :
    busSource a (memWrite a v s) = some v := by
  obtain ⟨-, -, hcolor, -, -, -⟩ := ioTarget_cases a
  have ha := ne_latch_of_resolve hr (by decide)
  simp only [memWrite_io hr, ioWrite, hcolor h1 h2]
  rw [busSource_io ha (by simpa using hr), ioRead, hcolor h1 h2]
  exact congrArg some (colorCell_put_same _ v _)

theorem busSource_memWrite_open (hr : resolve a s.bus.bank = .io) (ht : ioTarget a = .sound ∨ ioTarget a = .expansion)
    (v : Byte) : busSource a (memWrite a v s) = none := by
  have ha := ne_latch_of_resolve hr (by decide)
  rcases ht with ht | ht <;> simp [memWrite_io hr, ioWrite, busSource_io ha hr, ioRead, ht]

end

/-- Settles O25: a store that the write reaches and the read sees gives the value; elsewhere the write changes neither the bank
state nor the cartridge. -/
theorem readAfterWrite : Obligations.ReadAfterWrite := by
  refine fun a v s => ⟨fun h => ?_, fun ha hr => ?_, fun ⟨hr, h⟩ => ?_, fun b hb => memWrite_ramByte_other hb v s⟩
  · by_cases ha : a = 0x0001#16
    · subst ha
      rfl
    rcases h with h | hr | ⟨hr, h1, h2⟩
    · exact absurd h ha
    · exact busSource_memWrite_ram ha hr v
    · exact busSource_memWrite_color hr h1 h2 v
  · exact busSource_congr_of_resolve ha hr ((StoredAt.memWrite a v s).bank ha) (memWrite_cart a v s)
  · exact busSource_memWrite_open hr (ioTarget_open h) v

/-! ### The cartridge's windows -/

section

variable {a : Addr} {b : BankState}

/-- The low window of a cartridge, under Ultimax and under an 8K or 16K layout with both latch bits set (R101). -/
theorem resolve_roml (h1 : 0x8000 ≤ a.toNat) (h2 : a.toNat < 0xA000)
    (h : b.ultimax = true ∨ (b.exrom = false ∧ b.latch.getLsbD 0 = true ∧ b.latch.getLsbD 1 = true)) :
    resolve a b = .roml := by
  rw [resolve, if_neg (by omega), if_neg (by omega), if_pos h2]
  rcases h with hu | ⟨he, hl, hh⟩
  · rw [if_pos hu]
  · simp only [he, hl, hh, Bool.not_false, Bool.and_self, if_true, ite_self]

/-- The high window of a 16K layout (R101). -/
theorem resolve_romh_16k (h1 : 0xA000 ≤ a.toNat) (h2 : a.toNat < 0xC000) (he : b.exrom = false) (hg : b.game = false)
    (hh : b.latch.getLsbD 1 = true) : resolve a b = .romh := by
  rw [resolve, if_neg (by omega), if_neg (by omega), if_neg (by omega), if_pos h2]
  simp [BankState.ultimax, he, hg, hh]

/-- The high window of the Ultimax layout (R101). -/
theorem resolve_romh_ultimax (h1 : 0xE000 ≤ a.toNat) (hu : b.ultimax = true) : resolve a b = .romh := by
  rw [resolve, if_neg (by omega), if_neg (by omega), if_neg (by omega), if_neg (by omega), if_neg (by omega), if_neg (by omega),
    if_pos hu]

end

/-- Both low latch bits in the number the claims test. -/
theorem latch_bits {v : Byte} (h : v.toNat % 4 = 3) : v.getLsbD 0 = true ∧ v.getLsbD 1 = true := by
  simp only [getLsbD_eq_decide, decide_eq_true_eq]
  omega

/-- A read in a visible window gives the image's byte where the image covers the address (R105). -/
theorem busByte_cart {a : Addr} {s : State} {c : Cart} {b : Byte}
    (hr : resolve a s.bus.bank = .roml ∨ resolve a s.bus.bank = .romh) (hc : s.bus.cart = some c)
    (hle : c.load.toNat ≤ a.toNat) (hb : c.image[a.toNat - c.load.toNat]? = some b) : busByte a s = b := by
  have ha : a ≠ 0x0001#16 := hr.elim (ne_latch_of_resolve · (by decide)) (ne_latch_of_resolve · (by decide))
  rw [busByte, busSource_cart ha hr, hc, cartByte, if_pos hle, hb]
  rfl

/-- Settles O26: under each standard layout the inserted lines show the window that the image is loaded at. -/
theorem cartridgeVisibility : Obligations.CartridgeVisibility := by
  refine ⟨fun _ _ => rfl, fun _ => rfl, fun c s t a b ht hle hb hlayout => ?_⟩
  cases ht
  refine busByte_cart ?_ rfl hle hb
  rcases hlayout with ⟨hload, he, hg, hlatch, hhi⟩ | ⟨hload, he, hg, hlatch, hhi⟩ | ⟨hload, he, hg, hhi⟩ | ⟨hload, he, hg⟩
  all_goals rw [hload] at hle
  · exact .inl (resolve_roml hle hhi (.inr ⟨he, latch_bits hlatch⟩))
  · by_cases hlow : a.toNat < 0xA000
    · exact .inl (resolve_roml hle hlow (.inr ⟨he, latch_bits hlatch⟩))
    · exact .inr (resolve_romh_16k (Nat.not_lt.1 hlow) hhi he hg (latch_bits hlatch).2)
  · exact .inl (resolve_roml hle hhi (.inl ((ultimax_iff _).2 ⟨he, hg⟩)))
  · exact .inr (resolve_romh_ultimax hle ((ultimax_iff _).2 ⟨he, hg⟩))

/-! ### The video chip's view -/

/-- The view's bank and offset as one number (R130). -/
theorem toNat_viewAddr (b : BitVec 2) (a14 : BitVec 14) : (b ++ a14).toNat = b.toNat * 0x4000 + a14.toNat := by
  rw [BitVec.toNat_append, ← Nat.shiftLeft_add_eq_or_of_lt a14.isLt, Nat.shiftLeft_eq]

/-- The 4 KiB of the view that ROM_CHAR may cover (R130). -/
theorem charWindow_iff (a14 : BitVec 14) : a14.extractLsb' 12 2 = 0b01#2 ↔ 0x1000 ≤ a14.toNat ∧ a14.toNat < 0x2000 := by
  rw [← BitVec.toNat_inj, BitVec.extractLsb'_toNat, Nat.shiftRight_eq_div_pow]
  simp only [BitVec.toNat_ofNat]
  omega

/-- The offset into ROM_CHAR of an address in its window (R130). -/
theorem charOffset_eq (a14 : BitVec 14) (h1 : 0x1000 ≤ a14.toNat) (h2 : a14.toNat < 0x2000) :
    a14.extractLsb' 0 12 = BitVec.ofNat 12 (a14.toNat - 0x1000) := by
  apply BitVec.eq_of_toNat_eq
  rw [BitVec.extractLsb'_toNat, Nat.shiftRight_zero, BitVec.toNat_ofNat]
  omega

/-- The two low bits of port A, inverted (R131). -/
theorem vbank_toNat (s : State) : (vbank s).toNat = 3 - s.cia2.paEff.toNat % 4 := by
  rw [vbank, BitVec.extractLsb'_toNat, Nat.shiftRight_zero, BitVec.toNat_not]
  omega

theorem vicColorRead_toNat (i : BitVec 10) (s : State) : (vicColorRead i s).toNat = (colorCell i s.bus.colorRam).toNat % 16 := by
  rw [vicColorRead, BitVec.toNat_and]
  exact Nat.and_two_pow_sub_one_eq_mod _ 4

theorem vicRead_eq (a14 : BitVec 14) (s : State) :
    vicRead a14 s =
      if ((vbank s).toNat = 0 ∨ (vbank s).toNat = 2) ∧ 0x1000 ≤ a14.toNat ∧ a14.toNat < 0x2000 then
        Config.romChar (BitVec.ofNat 12 (a14.toNat - 0x1000))
      else ramByte (BitVec.ofNat 16 ((vbank s).toNat * 0x4000 + a14.toNat)) s.bus.ram := by
  have hbank : ∀ n : BitVec 2, vbank s = n ↔ (vbank s).toNat = n.toNat := fun n => BitVec.toNat_inj.symm
  rw [vicRead]
  refine ite_congr (by rw [hbank, hbank, charWindow_iff]; rfl) (fun h => ?_) fun _ => ?_
  · obtain ⟨-, h1, h2⟩ := h
    rw [charOffset_eq a14 h1 h2]
  · rw [← toNat_viewAddr, BitVec.ofNat_toNat, BitVec.setWidth_eq]

/-- Settles O27: the view's address and its bank as numbers; its definition reads RAM, colour RAM and CIA2 only. -/
theorem videoViewReads : Obligations.VideoViewReads := by
  refine ⟨vicRead_eq, vbank_toNat, vicColorRead_toNat, fun a14 i s t hram hcolor hcia2 => ⟨?_, ?_⟩⟩
  · have hvbank : vbank t = vbank s := by simp only [vbank, hcia2]
    rw [vicRead, vicRead, hvbank, hram]
  · simp only [vicColorRead, hcolor]

end Sys2Proof.Machine

namespace Sys2Proof

/-! ### The encoding and the decoder -/

/-- Settles O1: the table's entry for the opcode byte of an encoding spells the instruction with the bytes after it. -/
theorem decodeOfEncodeIsTheInstruction : Obligations.DecodeOfEncodeIsTheInstruction :=
  fun i rest _ => decodeBytes_encode_append i rest

/-- Bytes that a table decodes begin with an opcode byte of the table and the operand bytes that its entry spells. -/
theorem spells_of_decodeWith {isa : List IsaRow} {bs rest : List Byte} {i : Instr} (h : decodeWith isa bs = .ok (i, rest)) :
    ∃ op ops b, bs = op :: ops ++ rest ∧ lookupOp isa op = some b ∧ b.Spells ops i := by
  cases bs with
  | nil => cases h
  | cons op bs =>
    cases hb : lookupOp isa op with
    | none => simp [decodeWith, hb] at h
    | some b =>
      simp only [decodeWith, hb] at h
      cases b with
      | implied j =>
        cases h
        exact ⟨op, [], _, rfl, hb, rfl, rfl⟩
      | byte f =>
        simp only at h
        split at h <;> cases h
        exact ⟨op, [_], _, rfl, hb, _, rfl, rfl⟩
      | word f =>
        simp only at h
        split at h <;> cases h
        exact ⟨op, [_, _], _, rfl, hb, _, by simp, rfl⟩

/-- The instruction that a sound row spells with some operand bytes is well formed and encoded by the row's opcode and those bytes. -/
theorem OpRow.sound.encode_of_spells {r : OpRow} (hr : r.sound) {ops : List Byte} {i : Instr} (h : r.build.Spells ops i) :
    i.wellFormed = true ∧ encode i = r.op :: ops := by
  rw [OpRow.sound] at hr
  cases hb : r.build with
  | implied j =>
    rw [hb] at h hr
    obtain ⟨rfl, rfl⟩ := h
    obtain ⟨hwf, he, -⟩ := hr
    exact ⟨hwf, he⟩
  | byte f =>
    rw [hb] at h hr
    obtain ⟨b, rfl, rfl⟩ := h
    obtain ⟨hwf, he, -⟩ := hr b
    exact ⟨hwf, he⟩
  | word f =>
    rw [hb] at h hr
    obtain ⟨a, rfl, rfl⟩ := h
    obtain ⟨hwf, he, -⟩ := hr a
    exact ⟨hwf, he⟩

/-- Settles O2: the decoded bytes are spelled by an entry of the default table, and each of its rows is sound. -/
theorem onlyEncodingsDecode : Obligations.OnlyEncodingsDecode := by
  intro bs rest i h
  obtain ⟨op, ops, b, rfl, hb, hs⟩ := spells_of_decodeWith h
  obtain ⟨r, hr, rfl, rfl⟩ := lookupOp_row hb
  obtain ⟨hwf, he⟩ := (opcodeTable_sound r hr).encode_of_spells hs
  exact ⟨hwf, by rw [he], Machine.encode_length i⟩

/-- A table word whose bytes begin with an encoding decodes to that instruction. -/
theorem decodeTableWord_of_encode {nbits w : Nat} (i : Instr) (rest : List Byte) (h : tableWordBytes nbits w = encode i ++ rest) :
    decodeTableWord nbits w = some i := by
  rw [decodeTableWord, h, decodeBytes_encode_append]

/-- Settles O3: the bytes of each word are the encoding of its instruction, then the word's bytes that are not part of it. -/
theorem sampleWordsDecode : Obligations.SampleWordsDecode :=
  ⟨decodeTableWord_of_encode _ [0x00] rfl, decodeTableWord_of_encode _ [] rfl, decodeTableWord_of_encode _ [0x00, 0x00] rfl,
    decodeTableWord_of_encode _ [0x00] rfl, decodeTableWord_of_encode _ [0x00] rfl, decodeTableWord_of_encode _ [] rfl,
    decodeTableWord_of_encode _ [0x00] rfl, decodeTableWord_of_encode _ [0x00, 0x00] rfl⟩

/-! ### Illegal opcodes -/

open Claims

/-- A table refuses an opcode byte exactly when it has no instruction for it, whatever follows the byte. -/
theorem decodeWith_illegal_iff {isa : List IsaRow} {op : Byte} (bs : List Byte) :
    decodeWith isa (op :: bs) = .error (.illegalOpcode op) ↔ lookupOp isa op = none := by
  cases hb : lookupOp isa op with
  | none => simp [decodeWith, hb]
  | some b =>
    simp only [decodeWith, hb]
    cases b with
    | implied j => simp
    | byte f => cases bs <;> simp
    | word f =>
      simp only
      split <;> simp

/-- The default table has no instruction for exactly the bytes that are no row's opcode. -/
theorem lookupOp_default_eq_none {op : Byte} : lookupOp defaultIsa op = none ↔ ∀ r ∈ opcodeTable, r.op ≠ op := by
  simp [lookupOp_default]

/-- Each of the 256 bytes is either the opcode of a row of R144 or one of the bytes of R145. The test is on numbers by `Nat.beq`, which the
kernel computes directly. -/
theorem opcodes_any_eq_not_illegal : ∀ op : Byte,
    (opcodeTable.any fun r => Nat.beq r.op.toNat op.toNat) = !illegalBytes.any fun b => Nat.beq b.toNat op.toNat := by
  decide

/-- The bytes of R145 are those that no row of R144 has. -/
theorem mem_illegalBytes_iff (op : Byte) : op ∈ illegalBytes ↔ ∀ r ∈ opcodeTable, r.op ≠ op := by
  have hlisted : (illegalBytes.any fun b => Nat.beq b.toNat op.toNat) = true ↔ op ∈ illegalBytes := by
    simp [BitVec.toNat_inj]
  have hrow : (opcodeTable.any fun r => Nat.beq r.op.toNat op.toNat) = false ↔ ∀ r ∈ opcodeTable, r.op ≠ op := by
    simp [← Bool.not_eq_true, BitVec.toNat_inj]
  rw [← hlisted, ← hrow, opcodes_any_eq_not_illegal, Bool.not_eq_false']

namespace Machine

/-- Of a byte that the Config's table has no instruction for nothing but the byte itself is fetched (R182). -/
theorem fetchBytes_of_illegal {s : State} (h : fetchesIllegal s) :
    fetchBytes s = ([busByte s.cpu.pc s], afterRead s.cpu.pc s) := by
  have hn : lookupOp s.config.isa (busByte s.cpu.pc s) = none := (decodeWith_illegal_iff []).1 h
  simp [fetchBytes, memRead, operandCount, hn, readBytes]

/-- Fetching an illegal byte faults with PC on it, in the state that the read of the byte leaves (R352). -/
theorem step_of_illegal {s : State} (hs : canFetch s) (h : fetchesIllegal s) :
    step s = .next ((afterRead s.cpu.pc s).setStatus (.faulted (.illegalOpcode s.cpu.pc (busByte s.cpu.pc s)))) := by
  obtain ⟨hrun, hbp⟩ := hs
  have hd : decodeWith s.config.isa [busByte s.cpu.pc s] = .error (.illegalOpcode (busByte s.cpu.pc s)) := h
  simp [step, hrun, hbp, fetchBytes_of_illegal h, hd, raiseIllegalOpcode_eq]

/-- A faulted machine has no step (R195). -/
theorem step_of_faulted {s : State} {f : FaultRecord} (h : s.engine.status = .faulted f) : step s = .fault (.stoppedFaulted f) := by
  rw [step, h]

/-- Settles O7: the bytes the table refuses are those of no row, and a step on one sets nothing but the status after the opcode read. -/
theorem illegalOpcodesFault : Obligations.IllegalOpcodesFault := by
  refine ⟨by decide, by decide, fun op bs => ?_, fun s hs h => ⟨_, step_of_illegal hs h, ?_⟩⟩
  · rw [decodeBytes, decodeWith_illegal_iff, lookupOp_default_eq_none, mem_illegalBytes_iff]
  · refine ⟨by simp [State.setStatus], by simp, by simp, by simp, by simp, fun u => ?_⟩
    rw [step_of_faulted rfl]
    nofun

end Machine

end Sys2Proof

namespace Sys2Proof.Machine

open Claims

/-! ### Notification, chip by chip -/

@[simp] theorem notify_cia1 (c : Nat) (s : State) : (notify c s).cia1 = Cia.tick^[c] s.cia1 := by
  induction c generalizing s <;> simp [notify, *]

@[simp] theorem notify_cia2 (c : Nat) (s : State) : (notify c s).cia2 = Cia.tick^[c] s.cia2 := by
  induction c generalizing s <;> simp [notify, *]

@[simp] theorem notify_vic (c : Nat) (s : State) : (notify c s).vic = (Vic.tick s.config.geometry)^[c] s.vic := by
  induction c generalizing s <;> simp [notify, *]

/-- What a notified cycle does for the NMI: a tick of CIA2, then the sample (R186, R188). -/
def nmiCycle (s : State) : State := sampleNmi (s.setCia2 s.cia2.tick)

/-- The rest of the cycles' effect, which the NMI does not see: CIA1 and the video chip replaced, the clock `n` cycles on. -/
def State.advanceOthers (s : State) (c1 : Cia) (v : Vic) (n : Nat) : State :=
  ((s.setCia1 c1).setVic v).setCycles (s.engine.cycles + n)

theorem State.advanceOthers_advanceOthers (s : State) (c1 d1 : Cia) (v w : Vic) (m n : Nat) :
    (s.advanceOthers c1 v m).advanceOthers d1 w n = s.advanceOthers d1 w (m + n) := by
  simp [State.advanceOthers, State.setCia1, State.setVic, State.setCycles, Nat.add_assoc]

theorem notifyCycle_eq (s : State) :
    notifyCycle s = (nmiCycle s).advanceOthers s.cia1.tick (s.vic.tick s.config.geometry) 1 := rfl

/-- R190's reason: CIA2's tick and the sample neither read nor write what the other observers' ticks write. -/
theorem nmiCycle_iterate_advanceOthers (c : Nat) (s : State) (c1 : Cia) (v : Vic) (n : Nat) :
    nmiCycle^[c] (s.advanceOthers c1 v n) = (nmiCycle^[c] s).advanceOthers c1 v n :=
  have hcomm : Function.Commute nmiCycle (·.advanceOthers c1 v n) := fun _ => rfl
  hcomm.iterate_left c s

/-- Per-cycle notification, with the ticks of CIA1 and the video chip moved past CIA2's ticks and samples. -/
theorem notify_eq_advanceOthers (c : Nat) (s : State) :
    notify c s =
      (nmiCycle^[c] s).advanceOthers (Cia.tick^[c] s.cia1) ((Vic.tick s.config.geometry)^[c] s.vic) c := by
  induction c generalizing s with
  | zero => rfl
  | succ c ih =>
    rw [notify, ih, notifyCycle_eq, nmiCycle_iterate_advanceOthers, State.advanceOthers_advanceOthers, Nat.add_comm 1 c]
    rfl

/-- The per-instruction form, with CIA1's ticks moved past CIA2's ticks and samples. -/
theorem notifiedPerInstruction_eq_advanceOthers (c : Nat) (s : State) :
    notifiedPerInstruction c s =
      (nmiCycle^[c] s).advanceOthers (Cia.tick^[c] s.cia1) ((Vic.tick s.config.geometry)^[c] s.vic) c := by
  have hform : notifiedPerInstruction c s =
      let t := nmiCycle^[c] (s.advanceOthers (Cia.tick^[c] s.cia1) s.vic 0)
      t.advanceOthers t.cia1 ((Vic.tick s.config.geometry)^[c] t.vic) c := rfl
  rw [hform, nmiCycle_iterate_advanceOthers]
  simp only [State.advanceOthers_advanceOthers, Nat.zero_add]
  rfl

/-- Settles O10: both forms are CIA2's chain of ticks and samples with the other two chips advanced beside it. -/
theorem notifyAgreesWithThePerInstructionForm : Obligations.NotifyAgreesWithThePerInstructionForm := fun c s =>
  ⟨(notify_eq_advanceOthers c s).trans (notifiedPerInstruction_eq_advanceOthers c s).symm, notify_cia1 c s, notify_cia2 c s,
    notify_vic c s, notify_cycles c s⟩

/-! ### The NMI sampler and the poll -/

theorem Cia.irq_eq_decide (c : Cia) : c.irq = decide (c.icrFlags &&& c.icrMask ≠ 0#5) := by
  rw [Bool.eq_iff_iff]
  simp [Cia.irq]

/-- The sampler, with the latch by cases: set on a rising edge, else as it was (R188). -/
theorem sampleNmi_eq (s : State) :
    sampleNmi s =
      (s.setNmiPending (if s.cia2.irq = true ∧ s.engine.nmiPrev = false then true else s.engine.nmiPending)).setNmiPrev
        s.cia2.irq := by
  cases hline : s.cia2.irq <;> cases hprev : s.engine.nmiPrev <;> simp [sampleNmi, nmiLine, hline, hprev]

theorem poll_of_pending {s : State} (h : s.engine.nmiPending = true) :
    poll s = interruptEntry .nmi (s.setNmiPending false) := by
  simp [poll, h]

theorem poll_of_irq {s : State} (h : s.engine.nmiPending = false) (hline : irqLine s = true) (hi : s.cpu.p.i = false) :
    poll s = interruptEntry .irq s := by
  simp [poll, h, hline, hi]

theorem poll_of_quiet {s : State} (h : s.engine.nmiPending = false) (hq : irqLine s = false ∨ s.cpu.p.i = true) :
    poll s = s := by
  rcases hq with hline | hi
  · simp [poll, h, hline]
  · simp [poll, h, hi]

/-- Settles O11: the sampler's equation with CIA2's output written out (R409), and the poll's three branches. -/
theorem nmiEdgesAreLatchedAndServedFirst : Obligations.NmiEdgesAreLatchedAndServedFirst := by
  refine fun s => ⟨?_, poll_of_pending, poll_of_irq, poll_of_quiet⟩
  rw [sampleNmi_eq, Cia.irq_eq_decide]
  simp only [decide_eq_true_eq]
  rfl

/-! ### How a step begins -/

theorem step_of_breakpoint {s : State} (hrun : s.engine.status = .running) (hb : s.engine.breakpoint = some s.cpu.pc) :
    step s = .next (haltAtBreakpoint s) := by
  simp [step, hrun, hb]

theorem step_of_halted {s : State} {pc : Addr} (h : s.engine.status = .halted pc) : step s = .fault (.stoppedHalted pc) := by
  rw [step, h]

/-- Settles O4: the decoded instruction is executed, and the phases after it are `finishStep`'s by definition. -/
theorem stepRunsTheDecodedInstruction : Obligations.StepRunsTheDecodedInstruction := by
  intro s i rest hs hd
  obtain ⟨t, hexec, hstep⟩ := step_of_decode hs hd
  exact ⟨t, hexec, hstep, rfl⟩

/-- Settles O6: the halt sets the status alone, and a stopped machine answers a fault. -/
theorem breakpointHaltsBeforeTheFetch : Obligations.BreakpointHaltsBeforeTheFetch := by
  refine ⟨fun s => step_of_breakpoint, fun s u hstopped => ?_⟩
  rcases hstopped with ⟨pc, h⟩ | ⟨f, h⟩
  · rw [step_of_halted h]
    nofun
  · rw [step_of_faulted h]
    nofun

/-! ### Launches and host events keep the invariant -/

/-- Attaching or removing a cartridge sets both lines with it, so the bus stays in a good state (R106, R107). -/
theorem State.Inv.attach {s : State} (h : s.Inv) (cart : Option Cart) : (attach cart s).Inv := by
  obtain ⟨hbus, hcia1, hcia2, hvic, hnmi, hreported⟩ := h
  have hmem : Memory.wf 0x10000 s.bus.ram = true ∧ Memory.wf 0x400 s.bus.colorRam = true := by
    simp only [Bus.inv, Bool.and_eq_true] at hbus
    exact hbus.1
  cases cart with
  | none => exact ⟨by simp [Machine.attach, Bus.inv, hmem], hcia1, hcia2, hvic, hnmi, hreported⟩
  | some c => exact ⟨by simp [Machine.attach, Bus.inv, hmem], hcia1, hcia2, hvic, hnmi, hreported⟩

theorem State.Inv.setInput {s : State} (h : s.Inv) (inp : CiaInput) : (s.setInput inp).Inv :=
  .of_devices h.devices h.nmi h.reported

theorem State.Inv.setPc {s : State} (h : s.Inv) (a : Addr) : (s.setPc a).Inv := .of_devices h.devices h.nmi h.reported

/-- Above the I/O window a read takes a draw at most (R111). -/
theorem State.Inv.afterRead_high {s : State} (h : s.Inv) {a : Addr} (ha : 0xE000 ≤ a.toNat) : (afterRead a s).Inv := by
  rw [Machine.afterRead_high ha]
  exact .of_devices h.devices h.nmi h.reported

theorem Cia.inv_reset (id : CiaId) : (Cia.reset id).inv id = true := by
  cases id <;> decide

/-- The power-on values under any Config with a positive geometry and any breakpoint (R440, R522). -/
theorem inv_reset_with {g : MachineConfig} (hg : g.geometry.valid = true) (bp : Option Addr) :
    State.Inv { State.reset with config := g, engine.breakpoint := bp } := by
  have hpos : 0 < g.geometry.cyclesPerLine ∧ 0 < g.geometry.linesPerFrame := by simpa [Geometry.valid] using hg
  have hvic : Vic.reset.inv g.geometry = true := by
    rw [Vic.inv_iff]
    exact ⟨hpos.2, hpos.1, by decide, by decide, by decide⟩
  have hprev : State.reset.engine.nmiPrev = State.reset.cia2.irq := by decide
  exact ⟨rfl, Cia.inv_reset .cia1, Cia.inv_reset .cia2, hvic, nmiSampled_of_prev hprev, rfl⟩

theorem launchState_inv {g : MachineConfig} (hg : g.geometry.valid = true) (bp : Option Addr) (cart : Option Cart) :
    (launchState g bp cart).Inv :=
  (((inv_reset_with hg bp).attach cart).afterRead_high (a := 0xFFFC#16) (by decide)).afterRead_high (a := 0xFFFD#16) (by decide)
    |>.setPc _

/-- A launch that succeeds builds the launch state of its Config (R520). -/
theorem launch_ok {l : LaunchArgs} {s : State} (h : launch l = .ok s) :
    ∃ bp cart, s = launchState l.config bp cart := by
  unfold launch at h
  split at h
  · cases h
  · split at h
    · cases h
    · split at h
      · cases h
        exact ⟨_, _, rfl⟩
      · cases h

/-- A key or joystick event that succeeds sets the input state and nothing else (R381). -/
theorem setKey_ok {c r : Nat} {down : Bool} {s t : State} (h : setKey c r down s = .ok t) : ∃ inp, t = s.setInput inp := by
  unfold setKey at h
  split at h <;> cases h
  exact ⟨_, rfl⟩

theorem setJoy_ok {n : Nat} {bits : Byte} {s t : State} (h : setJoy n bits s = .ok t) : ∃ inp, t = s.setInput inp := by
  unfold setJoy at h
  split at h
  · cases h
    exact ⟨_, rfl⟩
  · split at h <;> cases h
    exact ⟨_, rfl⟩

/-- Everything a successful host event can do: set the input state, or attach or remove a cartridge (R380 to R382). -/
theorem hostEvent_ok {e : HostEvent} {s t : State} (h : hostEvent e s = .ok t) :
    (∃ inp, t = s.setInput inp) ∨ ∃ cart, t = attach cart s := by
  cases e with
  | keyDown c r => exact .inl (setKey_ok h)
  | keyUp c r => exact .inl (setKey_ok h)
  | setJoy n bits => exact .inl (setJoy_ok h)
  | insertCart c =>
    cases h
    exact .inr ⟨some c, rfl⟩
  | insertUnreadable => cases h
  | removeCart =>
    cases h
    exact .inr ⟨none, rfl⟩

theorem State.Inv.launch {l : LaunchArgs} {s : State} (hg : l.config.geometry.valid = true) (h : launch l = .ok s) : s.Inv := by
  obtain ⟨bp, cart, rfl⟩ := launch_ok h
  exact launchState_inv hg bp cart

theorem State.Inv.hostEvent {e : HostEvent} {s t : State} (hs : s.Inv) (h : hostEvent e s = .ok t) : t.Inv := by
  rcases hostEvent_ok h with ⟨inp, rfl⟩ | ⟨cart, rfl⟩
  · exact hs.setInput inp
  · exact hs.attach cart

theorem Reachable.inv {s : State} (h : Reachable s) : s.Inv := by
  induction h with
  | launch l s hg h => exact .launch hg h
  | step s t _ h ih => exact ih.step h
  | event e s t _ h ih => exact ih.hostEvent h

/-- Settles O17: the launch, the host events, and the induction over runs. -/
theorem everyReachableStateMeetsTheInvariant : Obligations.EveryReachableStateMeetsTheInvariant :=
  ⟨fun _ _ => .launch, fun _ _ _ => .hostEvent, fun _ => Reachable.inv⟩

end Sys2Proof.Machine

namespace Sys2Proof

/-! ### The halves of a word, as the claims write them -/

theorem loByte_eq (a : Addr) : loByte a = BitVec.ofNat 8 (a.toNat % 256) := by
  rw [← toNat_loByte, BitVec.ofNat_toNat, BitVec.setWidth_eq]

theorem hiByte_eq (a : Addr) : hiByte a = BitVec.ofNat 8 (a.toNat / 256) := by
  rw [← toNat_hiByte, BitVec.ofNat_toNat, BitVec.setWidth_eq]

end Sys2Proof

namespace Sys2Proof.Claims

/-! ### The bytes after the opcode -/

/-- The operand bytes of a form, with the halves of an address as the encoder writes them (R141). -/
def Form.operandBytes : Form → List Byte
  | .zp z | .zpx z | .zpy z | .indx z | .indy z => [z]
  | .abs a | .absx a | .absy a => [loByte a, hiByte a]

theorem Form.bytes_eq (op : Byte) (f : Form) : f.bytes op = op :: f.operandBytes := by
  cases f with
  | zp z | zpx z | zpy z | indx z | indy z => rfl
  | abs a | absx a | absy a => rw [operandBytes, loByte_eq, hiByte_eq, bytes]

/-- The operand bytes of a source: the immediate byte itself, or those of the form. -/
def Source.operandBytes : Source → List Byte
  | .imm v => [v]
  | .mem f => f.operandBytes

theorem Source.bytes_eq (op : Byte) (src : Source) : src.bytes op = op :: src.operandBytes := by
  cases src with
  | imm v => rfl
  | mem f => exact f.bytes_eq op

end Sys2Proof.Claims

namespace Sys2Proof.Machine

open Claims

/-! ### Loads and stores -/

/-- Each row of the table has the opcode byte and the operand of its instruction's encoding (R144). -/
theorem encode_readInstr {m : Mnemonic} {src : Source} {op : Byte} {i : Instr} (h : readInstr m src = some (op, i)) :
    encode i = src.bytes op := by
  rw [src.bytes_eq]
  unfold readInstr at h
  split at h <;> cases h <;> rfl

/-- The same for the table of the stores. -/
theorem encode_storeInstr {m : Mnemonic} {f : Form} {op : Byte} {i : Instr} (h : storeInstr m f = some (op, i)) :
    encode i = f.bytes op := by
  rw [f.bytes_eq]
  unfold storeInstr at h
  split at h <;> cases h <;> rfl

/-- What a row of the reading table says of its instruction: its bytes and its whole next state. -/
theorem readInstr_spec {m : Mnemonic} {src : Source} {op : Byte} {i : Instr} (h : readInstr m src = some (op, i)) (s : State) :
    encode i = src.bytes op ∧ exec i s = .next (readDone m src s (readCpu m (src.value s) s.cpu)) :=
  ⟨encode_readInstr h, exec_readInstr h s⟩

/-- Settles O28: the table's row for the mnemonic, where `readCpu` puts the operand in the register and sets N and Z from it. -/
theorem loadInstructions : Obligations.LoadInstructions := by
  intro src op i s
  simp only [nz_eq]
  exact ⟨(readInstr_spec · s), (readInstr_spec · s), (readInstr_spec · s)⟩

/-- The stores are STA, STX and STY, so the register stored is the mnemonic's own (R214 to R216). -/
theorem storeByte_of_storeInstr {m : Mnemonic} {f : Form} {op : Byte} {i : Instr} (h : storeInstr m f = some (op, i)) (c : Cpu) :
    storeByte m c = if m = .sta then c.a else if m = .stx then c.x else c.y := by
  unfold storeInstr at h
  split at h <;> cases h <;> rfl

/-- A write changes no register and no report, so ending an instruction after it sets PC and the report from the state before (R184). -/
theorem retire_memWrite (m : Mnemonic) (f : Form) (a : Addr) (v : Byte) (s : State) :
    retire m f.mode (f.crossed s) (memWrite a v s) =
      { memWrite a v s with
        cpu := { s.cpu with pc := s.cpu.pc + BitVec.ofNat 16 f.length }
        aux := { s.aux with reported := f.cycles m s } } := by
  simp only [retire, State.setPc, State.setReported, instrCycles, Form.cycles, f.mode_length, memWrite_cpu, memWrite_aux,
    memWrite_config]

/-- Settles O29: the table's row is the encoding, and the state is the one write's with PC and the report set. -/
theorem storeInstructions : Obligations.StoreInstructions := by
  intro m f op i s h
  refine ⟨encode_storeInstr h, ?_⟩
  rw [exec_storeInstr h, retire_memWrite, storeByte_of_storeInstr h]

end Sys2Proof.Machine

namespace Sys2Proof.Machine

open Claims

/-! ### The register instructions -/

/-- Each row of the register table has the opcode byte of its instruction's encoding (R144). -/
theorem encode_registerInstr {m : Mnemonic} {op : Byte} {i : Instr} {c d : Cpu} (h : registerInstr c m = some (op, i, d)) :
    encode i = [op] := by
  unfold registerInstr at h
  split at h <;> cases h <;> rfl

/-- Ending a one-byte instruction without an operand advances PC by 1 and reports the base count of its row (R184). -/
theorem retire_imp (m : Mnemonic) (s : State) :
    retire m .imp false s =
      { s with
        cpu := { s.cpu with pc := s.cpu.pc + 1 }
        aux := { s.aux with reported := (s.config.cycleRow m .imp).base } } :=
  rfl

/-- Settles O36: the table's row is the encoding, and its registers, which keep PC, stand in the state that `retire` ends. -/
theorem registerInstructions : Obligations.RegisterInstructions := by
  intro m op i c s h
  obtain ⟨-, hpc⟩ := registerInstr_mode h
  refine ⟨encode_registerInstr h, ?_⟩
  rw [exec_registerInstr h, retire_imp, hpc]

/-! ### The stack instructions -/

/-- The status byte of R35 is the concatenation of its eight bits. -/
theorem statusByte_eq (brk : Bool) (p : Flags) : statusByte brk p = p.pbyte brk := by
  obtain ⟨n, v, d, i, z, c⟩ := p
  revert brk n v d i z c
  decide

/-- The flags that PLP and RTI load are bits of the pulled byte (R35). -/
theorem flagsOf_eq (b : Byte) : flagsOf b = Flags.ofPbyte b := by
  simp only [flagsOf, Flags.ofPbyte, getLsbD_eq_decide]
  norm_num

/-- The k-th pull reads at 0x0100 + S + k, where S wraps in its page (R14, R31). -/
theorem stackByte_eq (sp : Byte) (k : Nat) (s : State) :
    stackByte sp k s = ramByte (stackAddr (sp + BitVec.ofNat 8 k)) s.bus.ram := by
  have haddr : BitVec.ofNat 16 (0x100 + (sp.toNat + k) % 256) = stackAddr (sp + BitVec.ofNat 8 k) := by
    apply BitVec.eq_of_toNat_eq
    rw [stackAddr_toNat, BitVec.toNat_ofNat, BitVec.toNat_add, BitVec.toNat_ofNat]
    omega
  rw [stackByte, haddr]

/-- A pull gives the claims' first stack byte, and leaves S one higher (R230). -/
theorem pull_eq_stackByte (s : State) : pull s = (stackByte s.cpu.sp 1 s, s.setSp (s.cpu.sp + 1#8)) := by
  rw [pull_eq, stackByte_eq]

/-- PHA and PHP: one byte pushed, and the instruction ended (R237, R238). -/
theorem retire_push (m : Mnemonic) (v : Byte) (s : State) :
    retire m .imp false (push v s) =
      { s with
        cpu := { s.cpu with sp := s.cpu.sp - 1, pc := s.cpu.pc + 1 }
        bus := { s.bus with ram := pushed [v] s.cpu.sp s.bus.ram }
        aux := { s.aux with reported := (s.config.cycleRow m .imp).base } } := by
  rw [push_eq, retire_imp]
  rfl

theorem exec_pha (s : State) : exec .pha s = .next (retire .pha .imp false (push s.cpu.a s)) := rfl

theorem exec_php (s : State) : exec .php s = .next (retire .php .imp false (push (s.cpu.p.pbyte true) s)) := rfl

theorem exec_pla (s : State) : exec .pla s = .next (retire .pla .imp false (pullA s)) := rfl

theorem exec_plp (s : State) : exec .plp s = .next (retire .plp .imp false (pullP s)) := rfl

/-- Settles O38: a push is one write to RAM and a pull one read of it, and the pulled byte gives A with N and Z, or the six flags. -/
theorem stackInstructions : Obligations.StackInstructions := by
  intro s
  refine ⟨⟨rfl, ?pha⟩, ⟨rfl, ?php⟩, ⟨rfl, ?pla⟩, ⟨rfl, ?plp⟩⟩
  case pha => rw [exec_pha, retire_push]
  case php => rw [exec_php, retire_push, statusByte_eq]
  case pla =>
    rw [exec_pla, retire_imp, pullA, pull_eq_stackByte, nz_eq]
    rfl
  case plp =>
    rw [exec_plp, retire_imp, pullP, pull_eq_stackByte, flagsOf_eq]
    rfl

end Sys2Proof.Machine

namespace Sys2Proof.Machine

open Claims

/-! ### The binary and decimal laws, as the claims compute them with numbers -/

theorem beq_zero_eq (b : Byte) : (b == 0#8) = decide (b.toNat = 0) := by
  rw [beq_eq_decide, decide_eq_decide, BitVec.toNat_eq]
  rfl

/-- Operands of one sign with a sum of the other are a signed overflow, and nothing else is (R250). -/
theorem overflow_eq (a m : Byte) (c : Bool) :
    (~~~(a ^^^ m) &&& (a ^^^ BitVec.ofNat 8 (a.toNat + m.toNat + c.toNat))).getLsbD 7 =
      decide (a.toInt + m.toInt + c.toNat < -128 ∨ 127 < a.toInt + m.toInt + c.toNat) := by
  have ha := a.isLt
  have hm := m.isLt
  have hc := c.toNat_le
  rw [BitVec.getLsbD_and, BitVec.getLsbD_not, BitVec.getLsbD_xor, BitVec.getLsbD_xor, byte_toInt, byte_toInt]
  simp only [getLsbD_seven, BitVec.toNat_ofNat]
  split <;> split <;> grind

theorem addBin_eq (a m : Byte) (c : Bool) : addBin a m c = binarySum a m c := by
  simp only [addBin, binarySum, bit01_eq, overflow_eq]
  rw [getLsbD_seven, beq_zero_eq, BitVec.toNat_ofNat]

/-- Adding the complement is subtracting with borrow: `255 - m` as an unsigned byte, `-1 - m` as a signed one (R250). -/
theorem subBin_eq (a m : Byte) (c : Bool) : subBin a m c = binaryDifference a m c := by
  have ha := a.isLt
  have hm := m.isLt
  have hc := c.toNat_le
  simp only [subBin, addBin_eq, binarySum, binaryDifference, not_toNat, not_toInt, AluResult.mk.injEq, decide_eq_decide]
  refine ⟨?_, ?_, ?_, ?_, ?_⟩
  · apply BitVec.eq_of_toNat_eq
    rw [BitVec.toNat_ofNat, BitVec.toNat_ofInt]
    omega
  all_goals omega

theorem highNibble_toInt (a : Byte) : (a &&& 0xF0#8).toInt = signedHigh a := by
  rw [byte_toInt, and_highNibble, signedHigh]
  split <;> split <;> omega

/-- The nibbles of R253 as quotients and remainders by 16. -/
theorem adcDec_eq (a m : Byte) (c : Bool) : adcDec a m c = decimalSum a m c := by
  simp only [adcDec, decimalSum, and_lowNibble, and_highNibble, highNibble_toInt, bit01_eq, beq_zero_eq, BitVec.toNat_ofNat,
    Nat.testBit_eq_decide_div_mod_eq, Nat.reducePow, Bool.decide_or]

/-- The same for R254, with the binary flags of `subBin_eq`. -/
theorem sbcDec_eq (a m : Byte) (c : Bool) : sbcDec a m c = decimalDifference a m c := by
  simp only [sbcDec, decimalDifference, and_lowNibble, and_highNibble, subBin_eq, bit01_eq]
  push_cast
  rfl

theorem adcResult_eq (p : Flags) (a m : Byte) :
    adcResult p a m = if p.d then decimalSum a m p.c else binarySum a m p.c := by
  rw [adcResult, adcDec_eq, addBin_eq]

theorem sbcResult_eq (p : Flags) (a m : Byte) :
    sbcResult p a m = if p.d then decimalDifference a m p.c else binaryDifference a m p.c := by
  rw [sbcResult, sbcDec_eq, subBin_eq]

/-! ### Addition, subtraction and comparison -/

/-- Settles O30: the table's row for ADC, where `readCpu` adds by the machine's `adcResult`. -/
theorem addInstruction : Obligations.AddInstruction := by
  intro src op i s h
  rw [← adcResult_eq]
  exact readInstr_spec h s

/-- Settles O31: the table's row for SBC, where `readCpu` subtracts by the machine's `sbcResult`. -/
theorem subtractInstruction : Obligations.SubtractInstruction := by
  intro src op i s h
  rw [← sbcResult_eq]
  exact readInstr_spec h s

/-- N of a compare is the sign of the difference mod 256 (R255 to R257). -/
theorem comparison_eq (r m : Byte) (p : Flags) : comparison r m p = p.compare r m := by
  rw [comparison, Flags.compare, getLsbD_seven, BitVec.toNat_sub, beq_eq_decide]
  congr 3
  omega

/-- Settles O33: the table's row for the mnemonic, where `readCpu` compares its register with the operand. -/
theorem compareInstructions : Obligations.CompareInstructions := by
  intro src op i s
  simp only [comparison_eq]
  exact ⟨(readInstr_spec · s), (readInstr_spec · s), (readInstr_spec · s)⟩

/-! ### Decimal bytes -/

theorem bcd_toNat {n : Nat} (h : n < 100) : (bcd n).toNat = 16 * (n / 10) + n % 10 := by
  rw [bcd, BitVec.toNat_ofNat]
  omega

theorem bcd_low {n : Nat} (h : n < 100) : (bcd n).toNat % 16 = n % 10 := by
  rw [bcd_toNat h]
  omega

theorem bcd_high {n : Nat} (h : n < 100) : (bcd n).toNat / 16 = n / 10 := by
  rw [bcd_toNat h]
  omega

/-- Adding nibble by nibble, with 6 more on a carry between the digits, gives the digits of the sum with its tens not yet corrected
(R253). -/
theorem sum_digits (a m : Nat) {c : Nat} (hc : c ≤ 1) :
    16 * (a / 10) + 16 * (m / 10) +
        (if 10 ≤ a % 10 + m % 10 + c then (a % 10 + m % 10 + c + 6) % 16 + 16 else a % 10 + m % 10 + c) =
      16 * ((a + m + c) / 10) + (a + m + c) % 10 := by
  split <;> omega

/-- Subtracting nibble by nibble, with 6 less on a borrow between the digits, gives the digits of the difference plus 100, ten tens too
low (R254). -/
theorem difference_digits (a m : Int) {c : Int} (hc : 0 ≤ c ∧ c ≤ 1) :
    16 * (a / 10) - 16 * (m / 10) +
        (if a % 10 - m % 10 + c - 1 < 0 then (a % 10 - m % 10 + c - 1 - 6) % 16 - 16 else a % 10 - m % 10 + c - 1) =
      16 * ((100 + a + c - 1 - m) / 10) + (100 + a + c - 1 - m) % 10 - 160 := by
  split <;> omega

/-- The correction of the tens, 0x60 from 0xA0 on, drops the hundred (R253). -/
theorem corrected_eq_bcd {n : Nat} (h : n < 200) :
    BitVec.ofNat 8 (if 160 ≤ 16 * (n / 10) + n % 10 then 16 * (n / 10) + n % 10 + 96 else 16 * (n / 10) + n % 10) =
      bcd (n % 100) := by
  apply BitVec.eq_of_toNat_eq
  rw [bcd, BitVec.toNat_ofNat, BitVec.toNat_ofNat]
  rcases Nat.lt_or_ge n 100 with hlt | hge
  · rw [if_neg (by omega), Nat.mod_eq_of_lt hlt]
  · rw [if_pos (by omega), Nat.mod_eq_sub_mod hge, Nat.mod_eq_of_lt (show n - 100 < 100 by omega)]
    omega

theorem decimalSum_bcd {a m : Nat} (c : Bool) (ha : a < 100) (hm : m < 100) :
    (decimalSum (bcd a) (bcd m) c).r = bcd ((a + m + c.toNat) % 100) ∧
      (decimalSum (bcd a) (bcd m) c).c = decide (100 ≤ a + m + c.toNat) := by
  have hc := c.toNat_le
  simp only [decimalSum, bcd_low ha, bcd_low hm, bcd_high ha, bcd_high hm, sum_digits a m hc, decide_eq_decide]
  constructor
  · exact corrected_eq_bcd (by omega)
  · split <;> omega

/-- The correction of the tens after a borrow is the one after a carry, mod 256 (R254). -/
theorem borrowed_eq_corrected (t : Nat) :
    BitVec.ofInt 8 (if (t : Int) - 160 < 0 then (t : Int) - 160 - 96 else t - 160) =
      BitVec.ofNat 8 (if 160 ≤ t then t + 96 else t) := by
  apply BitVec.eq_of_toNat_eq
  rw [BitVec.toNat_ofInt, BitVec.toNat_ofNat]
  split <;> split <;> omega

theorem decimalDifference_bcd {a m : Nat} (c : Bool) (ha : a < 100) (hm : m < 100) :
    (decimalDifference (bcd a) (bcd m) c).r = bcd ((100 + a + c.toNat - 1 - m) % 100) ∧
      (decimalDifference (bcd a) (bcd m) c).c = decide (m + 1 ≤ a + c.toNat) := by
  have hc := c.toNat_le
  constructor
  · have hd := difference_digits a m (c := c.toNat) (by omega)
    have hn : (100 + a + c.toNat - 1 - m : Int) = (100 + a + c.toNat - 1 - m : Nat) := by omega
    have hlow {n : Nat} (h : n < 100) : ((bcd n).toNat : Int) % 16 = n % 10 := mod_cast bcd_low h
    have hhigh {n : Nat} (h : n < 100) : ((bcd n).toNat : Int) / 16 = n / 10 := mod_cast bcd_high h
    rw [← corrected_eq_bcd (by omega), ← borrowed_eq_corrected]
    simp only [decimalDifference, hlow ha, hlow hm, hhigh ha, hhigh hm, hd, hn]
    push_cast
    rfl
  · simp only [decimalDifference, binaryDifference, bcd_toNat ha, bcd_toNat hm, decide_eq_decide]
    omega

/-- Settles O32: the decimal laws on the digits of two numbers below 100. -/
theorem decimalModeComputesDecimalNumbers : Obligations.DecimalModeComputesDecimalNumbers := by
  intro a m c ha hm
  rw [adcDec_eq, sbcDec_eq]
  obtain ⟨hsum, hcarry⟩ := decimalSum_bcd c ha hm
  exact ⟨hsum, hcarry, decimalDifference_bcd c ha hm⟩

/-! ### Read-modify-write and shifts -/

theorem shiftLeft_one (v : Byte) : v <<< 1 = BitVec.ofNat 8 (2 * v.toNat) := by
  apply BitVec.eq_of_toNat_eq
  rw [BitVec.toNat_shiftLeft, Nat.shiftLeft_eq, BitVec.toNat_ofNat, Nat.pow_one, Nat.mul_comm]

theorem shiftRight_one (v : Byte) : v >>> 1 = BitVec.ofNat 8 (v.toNat / 2) := by
  apply BitVec.eq_of_toNat_eq
  rw [BitVec.toNat_ushiftRight, Nat.shiftRight_eq_div_pow, BitVec.toNat_ofNat]
  omega

theorem getLsbD_zero (v : Byte) : v.getLsbD 0 = decide (v.toNat % 2 = 1) := by
  rw [getLsbD_eq_decide, Nat.pow_zero, Nat.div_one]

theorem aslByte_eq (v : Byte) : aslByte v = (BitVec.ofNat 8 (2 * v.toNat), decide (128 ≤ v.toNat)) := by
  rw [aslByte, shiftLeft_one, getLsbD_seven]

theorem lsrByte_eq (v : Byte) : lsrByte v = (BitVec.ofNat 8 (v.toNat / 2), decide (v.toNat % 2 = 1)) := by
  rw [lsrByte, shiftRight_one, getLsbD_zero]

/-- The carry enters at the place that the shift freed, so the bits' union is a sum (R287). -/
theorem rolByte_eq (c : Bool) (v : Byte) :
    rolByte c v = (BitVec.ofNat 8 (2 * v.toNat + c.toNat), decide (128 ≤ v.toNat)) := by
  rw [rolByte, bit01_eq, shiftLeft_one, ← BitVec.ofNat_or, ← Nat.two_pow_add_eq_or_of_lt (i := 1) c.toNat_lt, Nat.pow_one,
    getLsbD_seven]

/-- The same at the other end of the byte (R288). -/
theorem rorByte_eq (c : Bool) (v : Byte) :
    rorByte c v = (BitVec.ofNat 8 (v.toNat / 2 + 128 * c.toNat), decide (v.toNat % 2 = 1)) := by
  have hc : BitVec.ofNat 8 c.toNat <<< 7 = BitVec.ofNat 8 (2 ^ 7 * c.toNat) := by cases c <;> rfl
  have hv : v.toNat / 2 < 2 ^ 7 := Nat.div_lt_of_lt_mul v.isLt
  rw [rorByte, bit01_eq, shiftRight_one, hc, BitVec.or_comm, ← BitVec.ofNat_or, ← Nat.two_pow_add_eq_or_of_lt hv, Nat.add_comm,
    getLsbD_zero]

theorem incByte_eq (p : Flags) (v : Byte) : incByte p v = BitVec.ofNat 8 (v.toNat + 1) := by
  rw [BitVec.ofNat_add, BitVec.ofNat_toNat, BitVec.setWidth_eq, incByte]

/-- Subtracting 1 is adding 255 (R259). -/
theorem decByte_eq (p : Flags) (v : Byte) : decByte p v = BitVec.ofNat 8 (v.toNat + 255) := by
  rw [BitVec.ofNat_add, BitVec.ofNat_toNat, BitVec.setWidth_eq]
  exact sub_eq_add_neg v 1#8

/-- The claims' result and carry are the machine's (R285 to R288). -/
theorem shiftOf_eq {m : Mnemonic} (h : m ∈ [.asl, .lsr, .rol, .ror]) (p : Flags) (v : Byte) :
    shiftOf m p v = (modifyResult m p.c v, modifyCarry m p.c v) := by
  simp only [List.mem_cons, List.not_mem_nil, or_false] at h
  obtain rfl | rfl | rfl | rfl := h
  · exact aslByte_eq v
  · exact lsrByte_eq v
  · exact rolByte_eq p.c v
  · exact rorByte_eq p.c v

theorem modifyFlags_eq (m : Mnemonic) (v : Byte) (p : Flags) :
    modifyFlags m v p = p.shift (modifyResult m p.c v, modifyCarry m p.c v) := by
  rw [modifyFlags, nz_eq, Flags.shift]

/-- For a shift the byte stored and the flags come from `shiftOf`. -/
theorem modify_of_shift {m : Mnemonic} (h : m ∈ [.asl, .lsr, .rol, .ror]) (p : Flags) (v : Byte) :
    modifyByte m p v = (shiftOf m p v).1 ∧ modifyP m p v = p.shift (shiftOf m p v) := by
  simp only [List.mem_cons, List.not_mem_nil, or_false] at h
  obtain rfl | rfl | rfl | rfl := h <;> exact ⟨rfl, rfl⟩

/-- The byte a read-modify-write stores and the flags it leaves are the claims'. -/
theorem modify_eq {m : Mnemonic} (h : m ∈ [.inc, .dec, .asl, .lsr, .rol, .ror]) (p : Flags) (v : Byte) :
    modifyByte m p v = modifyResult m p.c v ∧ modifyP m p v = modifyFlags m v p := by
  rw [modifyFlags_eq]
  rw [List.mem_cons, List.mem_cons] at h
  obtain rfl | rfl | hshift := h
  · exact ⟨incByte_eq p v, congrArg p.setNZ (incByte_eq p v)⟩
  · exact ⟨decByte_eq p v, congrArg p.setNZ (decByte_eq p v)⟩
  · obtain ⟨hbyte, hflags⟩ := modify_of_shift hshift p v
    rw [hbyte, hflags, shiftOf_eq hshift]
    exact ⟨rfl, rfl⟩

/-- A read and a write change no register and no report, so ending the instruction after them sets PC, the flags and the report from the
state before (R184). -/
theorem retire_modify (m : Mnemonic) (f : Form) (a : Addr) (v : Byte) (p : Flags) (s : State) :
    retire m f.mode (f.crossed s) ((memWrite a v (afterRead a s)).setP p) =
      { memWrite a v (afterRead a s) with
        cpu := { s.cpu with p := p, pc := s.cpu.pc + BitVec.ofNat 16 f.length }
        aux := { (memWrite a v (afterRead a s)).aux with reported := f.cycles m s } } := by
  simp only [retire, State.setPc, State.setReported, State.setP, instrCycles, Form.cycles, f.mode_length, memWrite_cpu,
    memWrite_config, afterRead_cpu, afterRead_config]

/-- Ending an accumulator instruction advances PC by 1 and reports the base count of its row (R184). -/
theorem retire_acc (m : Mnemonic) (s : State) :
    retire m .acc false s =
      { s with
        cpu := { s.cpu with pc := s.cpu.pc + 1 }
        aux := { s.aux with reported := (s.config.cycleRow m .acc).base } } :=
  rfl

/-- Each row of the read-modify-write table has the opcode byte and the operand of its instruction's encoding (R144). -/
theorem encode_modifyInstr {m : Mnemonic} {f : Form} {op : Byte} {i : Instr} (h : modifyInstr m f = some (op, i)) :
    encode i = f.bytes op := by
  rw [f.bytes_eq]
  unfold modifyInstr at h
  split at h <;> cases h <;> rfl

/-- The same for the table of the accumulator forms. -/
theorem encode_shiftAccInstr {m : Mnemonic} {op : Byte} {i : Instr} (h : shiftAccInstr m = some (op, i)) :
    encode i = [op] := by
  unfold shiftAccInstr at h
  split at h <;> cases h <;> rfl

/-- Settles O35: the table's row is the encoding, and the byte written, or left in A, and the flags are those of `modify_eq` and
`shiftOf_eq`. -/
theorem readModifyWriteAndShiftInstructions : Obligations.ReadModifyWriteAndShiftInstructions := by
  constructor
  case left =>
    intro m f op i s h
    obtain ⟨-, -, hm⟩ := modifyInstr_form h
    obtain ⟨hbyte, hflags⟩ := modify_eq hm s.cpu.p (busByte (f.ea s) s)
    refine ⟨encode_modifyInstr h, ?_⟩
    rw [exec_modifyInstr h, hbyte, hflags, retire_modify]
  case right =>
    intro m op i s h
    obtain ⟨-, -, hm⟩ := shiftAccInstr_form h
    refine ⟨encode_shiftAccInstr h, ?_⟩
    rw [exec_shiftAccInstr h, retire_acc, shiftA, shiftOf_eq hm, modifyFlags_eq]
    rfl

end Sys2Proof.Machine

namespace Sys2Proof.Machine

open Claims

/-! ### Logic and BIT -/

/-- N and V of BIT are bits 7 and 6 of the operand as a number; only Z depends on A (R284). -/
theorem bitTest_eq (a m : Byte) (p : Flags) :
    p.bitTest a m =
      { p with
        n := decide (m.toNat / 128 % 2 = 1)
        v := decide (m.toNat / 64 % 2 = 1)
        z := decide (a &&& m = 0#8) } := by
  simp only [Flags.bitTest, getLsbD_eq_decide, beq_eq_decide, Nat.reducePow]

/-- Settles O34: the table's row for the mnemonic, where `readCpu` combines A with the operand and sets N and Z from the result, or for
BIT sets the flags of `bitTest_eq`. -/
theorem logicInstructions : Obligations.LogicInstructions := by
  intro src op i s
  simp only [nz_eq, ← bitTest_eq]
  exact ⟨(readInstr_spec · s), (readInstr_spec · s), (readInstr_spec · s), (readInstr_spec · s)⟩

end Sys2Proof.Machine

namespace Sys2Proof

/-! ### The halves of a word, as the stack and the jumps use them -/

theorem low_eq (a : Addr) : Claims.low a = loByte a := by
  rw [loByte_eq, ← BitVec.toNat_inj, Claims.low, BitVec.toNat_ofNat, BitVec.toNat_ofNat, Nat.mod_mod]

theorem high_eq (a : Addr) : Claims.high a = hiByte a := (hiByte_eq a).symm

theorem join_eq (hi lo : Byte) : Claims.join hi lo = wordOf hi lo := by
  rw [Claims.join, ← toNat_wordOf, BitVec.ofNat_toNat, BitVec.setWidth_eq]

end Sys2Proof

namespace Sys2Proof.Machine

open Claims

/-! ### Jumps -/

theorem exec_jmpAbs (a : Addr) (s : State) : exec (.jmpAbs a) s = .next (jumpTo a (instrCycles .jmp .abs false s) s) := rfl

theorem exec_jmpInd (a : Addr) (s : State) : exec (.jmpInd a) s = .next (jumpIndirect a s) := rfl

/-- An instruction without a penalty reports the base count of its row (R160). -/
theorem instrCycles_false (m : Mnemonic) (md : Mode) (s : State) : instrCycles m md false s = (s.config.cycleRow m md).base := rfl

theorem jumpTo_eq (target : Addr) (c : Nat) (s : State) :
    jumpTo target c s = { s with cpu := { s.cpu with pc := target }, aux := { s.aux with reported := c } } :=
  rfl

/-- The three-byte jumps have their target after the opcode, low byte first (R141). -/
theorem addressBytes_eq (op : Byte) (a : Addr) : [op, loByte a, hiByte a] = [op, low a, high a] := by
  rw [low_eq, high_eq]

/-- Settles O39: the indirect pointer's second place is the one of `pointer_wrap`, and its two reads change no register. -/
theorem jumpInstructions : Obligations.JumpInstructions := by
  intro a s
  refine ⟨⟨addressBytes_eq _ a, ?abs⟩, ⟨addressBytes_eq _ a, ?ind⟩⟩
  case abs => rw [exec_jmpAbs, jumpTo_eq, instrCycles_false]
  case ind =>
    rw [exec_jmpInd, jumpIndirect, jumpTo_eq, instrCycles_false]
    simp only [indirectTarget, memRead, pointer_wrap, join_eq, afterRead_cpu]

/-! ### Subroutines -/

theorem exec_jsr (a : Addr) (s : State) :
    exec (.jsr a) s = .next (jumpTo a (instrCycles .jsr .abs false s) (pushWord (s.cpu.pc + 2) s)) := rfl

theorem exec_rts (s : State) :
    exec .rts s = .next (jumpTo ((pullWord s).1 + 1) (instrCycles .rts .imp false s) (pullWord s).2) := rfl

/-- A word is pushed high byte first (R114). -/
theorem pushWord_eq_pushed (w : Addr) (s : State) :
    pushWord w s = (s.setRam (pushed [high w, low w] s.cpu.sp s.bus.ram)).setSp (s.cpu.sp - 2) := by
  rw [pushWord_eq, low_eq, high_eq]
  rfl

/-- A pull gives the word of the claims' first two stack bytes, the low one first (R302). -/
theorem pullWord_eq_stackByte (s : State) :
    pullWord s = (join (stackByte s.cpu.sp 2 s) (stackByte s.cpu.sp 1 s), s.setSp (s.cpu.sp + 2)) := by
  rw [pullWord_eq, join_eq, stackByte_eq, stackByte_eq]
  rfl

/-- JSR leaves the return address on the stack and S two lower (R301). -/
theorem exec_jsr_eq (a : Addr) (s : State) :
    exec (.jsr a) s =
      .next { s with
        cpu := { s.cpu with sp := s.cpu.sp - 2, pc := a }
        bus := { s.bus with ram := pushed [high (s.cpu.pc + 2), low (s.cpu.pc + 2)] s.cpu.sp s.bus.ram }
        aux := { s.aux with reported := (s.config.cycleRow .jsr .abs).base } } := by
  rw [exec_jsr, pushWord_eq_pushed, jumpTo_eq]
  rfl

/-- RTS returns to the byte after the address it pulls (R302). -/
theorem exec_rts_eq (s : State) :
    exec .rts s =
      .next { s with
        cpu := { s.cpu with
          sp := s.cpu.sp + 2
          pc := join (stackByte s.cpu.sp 2 s) (stackByte s.cpu.sp 1 s) + 1 }
        aux := { s.aux with reported := (s.config.cycleRow .rts .imp).base } } := by
  rw [exec_rts, pullWord_eq_stackByte, jumpTo_eq]
  rfl

/-- Two bytes pushed from S are what two pulls from S - 2 read, in the other order, wherever S wraps (R31). -/
theorem stackByte_pushed {hi lo sp : Byte} {m : Memory} {s : State} (hs : s.bus.ram = pushed [hi, lo] sp m) :
    stackByte (sp - 2) 1 s = lo ∧ stackByte (sp - 2) 2 s = hi := by
  have hlow : sp - 2 + BitVec.ofNat 8 1 = sp - 1#8 := by bv_omega
  have hhigh : sp - 2 + BitVec.ofNat 8 2 = sp := by bv_omega
  have hne : stackAddr sp ≠ stackAddr (sp - 1#8) := by
    rw [Ne, stackAddr_inj]
    bv_omega
  simp only [stackByte_eq, hs, pushed, hlow, hhigh, ← stackAddr_toNat]
  exact ⟨ramByte_put_same _ _ _, (ramByte_put_other hne _ _).trans (ramByte_put_same _ _ _)⟩

theorem join_high_low (a : Addr) : join (high a) (low a) = a := by
  rw [join_eq, low_eq, high_eq, wordOf_hi_lo]

/-- RTS after JSR: every register as before, and PC at the byte after the JSR (R302). -/
theorem exec_rts_after_jsr {a : Addr} {s t : State} (h : exec (.jsr a) s = .next t) :
    ∃ u, exec .rts t = .next u ∧ u.cpu = { s.cpu with pc := s.cpu.pc + 3 } := by
  obtain ⟨hcpu, hram⟩ : t.cpu = { s.cpu with sp := s.cpu.sp - 2, pc := a } ∧
      t.bus.ram = pushed [high (s.cpu.pc + 2), low (s.cpu.pc + 2)] s.cpu.sp s.bus.ram := by
    cases h.symm.trans (exec_jsr_eq a s)
    exact ⟨rfl, rfl⟩
  obtain ⟨hlow, hhigh⟩ := stackByte_pushed hram
  have hpc : s.cpu.pc + 2 + 1 = s.cpu.pc + 3 := BitVec.add_assoc ..
  refine ⟨_, exec_rts_eq t, ?_⟩
  simp only [hcpu, hlow, hhigh, join_high_low, hpc, BitVec.sub_add_cancel]

/-- Settles O40: JSR and RTS are a push and a pull of one word, and the pull after the push gives the word back. -/
theorem subroutineInstructions : Obligations.SubroutineInstructions :=
  ⟨fun a s => ⟨addressBytes_eq _ a, exec_jsr_eq a s⟩, fun s => ⟨rfl, exec_rts_eq s⟩, fun _ _ _ => exec_rts_after_jsr⟩

/-! ### BRK and RTI -/

theorem exec_rti (s : State) : exec .rti s = .next ((returnFromException s).setReported (instrCycles .rti .imp false s)) := rfl

theorem exec_brk (s : State) :
    exec .brk s = .next ((takeException (s.cpu.pc + 2) true 0xFFFE#16 s).setReported (instrCycles .brk .imp false s)) := rfl

/-- Returning from an exception pulls the flags, then PC low byte first (R303). -/
theorem returnFromException_eq_stackByte (s : State) :
    returnFromException s =
      { s with cpu := { s.cpu with
          p := flagsOf (stackByte s.cpu.sp 1 s)
          sp := s.cpu.sp + 3
          pc := join (stackByte s.cpu.sp 3 s) (stackByte s.cpu.sp 2 s) } } := by
  simp only [returnFromException_eq, flagsOf_eq, join_eq, stackByte_eq]
  rfl

/-- A vector read from 0xE000 up changes the draw counter only. -/
theorem memRead16_high_state {a : Addr} (h : 0xE000 ≤ a.toNat) (h' : 0xE000 ≤ (a + 1#16).toNat) (s : State) :
    (memRead16 a s).2 = s.setDraws (memRead16 a s).2.aux.draws := by
  obtain ⟨-, -, hstate⟩ := memRead16_high_congr h h' (s := s) (t := s) rfl rfl rfl fun _ _ => rfl
  exact hstate

/-- Taking an exception is the claims' entry: its vector read sees none of the three pushes (R304, R365). -/
theorem takeException_eq_entered {vector : Addr} (h : 0xE000 ≤ vector.toNat) (h' : 0xE000 ≤ (vector + 1#16).toNat) (ret : Addr)
    (brk : Bool) (s : State) : takeException ret brk vector s = entered ret brk vector s := by
  have hstate := memRead16_high_state h h' s
  rw [takeException_eq h h']
  simp only [entered, statusByte_eq, high_eq, low_eq, pushed, sub_one_sub_one]
  generalize (memRead16 vector s).2.aux.draws = d at hstate ⊢
  rw [hstate]
  rfl

/-- Settles O41: RTI is the return and BRK the entry with B = 1 from 0xFFFE, each ended with its report. -/
theorem breakAndReturnFromInterrupt : Obligations.BreakAndReturnFromInterrupt := by
  intro s
  refine ⟨rfl, ?rti, rfl, ?brk⟩
  case rti =>
    rw [exec_rti, returnFromException_eq_stackByte]
    rfl
  case brk =>
    rw [exec_brk, takeException_eq_entered (by decide) (by decide)]
    rfl

/-! ### Branches -/

/-- Each row of the branch table has the opcode byte of its instruction's encoding (R144). -/
theorem encode_branchInstr {m : Mnemonic} {op : Byte} {mk : Byte → Instr} {cond : Flags → Bool}
    (h : branchInstr m = some (op, mk, cond)) (off : Byte) : encode (mk off) = [op, off] := by
  unfold branchInstr at h
  split at h <;> cases h <;> rfl

/-- A branch not taken moves PC by its two bytes and reports its base count (R305). -/
theorem branch_false (m : Mnemonic) (off : Byte) (s : State) :
    branch m false off s =
      { s with
        cpu := { s.cpu with pc := s.cpu.pc + 2 }
        aux := { s.aux with reported := (s.config.cycleRow m .rel).base } } :=
  rfl

/-- The penalties of a taken branch: one for taking it, one for a target on another page than the next instruction (R160). -/
theorem takenCycles_eq (m : Mnemonic) (target : Addr) (s : State) :
    takenCycles m (hiByte (s.cpu.pc + 2#16) != hiByte target) s =
      (s.config.cycleRow m .rel).base + (s.config.cycleRow m .rel).taken +
        if (s.cpu.pc.toNat + 2) % 65536 / 256 = target.toNat / 256 then 0 else (s.config.cycleRow m .rel).crossed := by
  have hnext : (s.cpu.pc + 2#16).toNat = (s.cpu.pc.toNat + 2) % 65536 := BitVec.toNat_add s.cpu.pc 2#16
  rw [takenCycles, instrCycles, hiByte_ne, hnext]
  simp only [decide_eq_true_eq, ne_eq, ite_not]
  exact Nat.add_right_comm ..

/-- A taken branch goes to PC + 2 plus the signed offset (R159, R305). -/
theorem branch_true (m : Mnemonic) (off : Byte) (s : State) :
    branch m true off s =
      let target : Addr := BitVec.ofInt 16 (s.cpu.pc.toNat + 2 + off.toInt)
      { s with
        cpu := { s.cpu with pc := target }
        aux := { s.aux with
          reported := (s.config.cycleRow m .rel).base + (s.config.cycleRow m .rel).taken +
            if (s.cpu.pc.toNat + 2) % 65536 / 256 = target.toNat / 256 then 0 else (s.config.cycleRow m .rel).crossed } } := by
  simp only [branch, if_true, takenCycles_eq, branchTarget_eq, jumpTo_eq]

/-- Settles O42: the table's row is the encoding, and its condition chooses between `branch_true` and `branch_false`. -/
theorem branchInstructions : Obligations.BranchInstructions := by
  intro m op mk cond off s h
  refine ⟨encode_branchInstr h off, fun htaken => ?taken, fun hnot => ?notTaken⟩
  case taken => rw [exec_branchInstr h, htaken, branch_true]
  case notTaken => rw [exec_branchInstr h, hnot, branch_false]

end Sys2Proof.Machine

namespace Sys2Proof.Machine

open Claims

/-! ### The flag instructions and NOP -/

/-- Each row of the flag table has the opcode byte of its instruction's encoding (R144). -/
theorem encode_flagInstr {m : Mnemonic} {op : Byte} {i : Instr} {p q : Flags} (h : flagInstr p m = some (op, i, q)) :
    encode i = [op] := by
  unfold flagInstr at h
  split at h <;> cases h <;> rfl

/-- Settles O37: the table's row is the encoding, and its flags stand in the state that `retire` ends as a one-byte instruction. -/
theorem flagInstructionsAndNop : Obligations.FlagInstructionsAndNop := by
  intro m op i p s h
  refine ⟨encode_flagInstr h, ?_⟩
  rw [exec_flagInstr h, retire_imp]
  rfl

end Sys2Proof.Machine

namespace Sys2Proof.Machine

open Claims

/-! ### Execution and interrupt entry -/

/-- Settles O8: execution is a chain of accesses and updates that keep what the engine and the host own. -/
theorem executionAlwaysCompletes : Obligations.ExecutionAlwaysCompletes := fun i s =>
  (closed_host s).exec i ⟨rfl, rfl, rfl, rfl, rfl, rfl⟩

/-- An entry is the exception of `entered` with B = 0, then the sample and the 7 cycles (R365). -/
theorem interruptEntry_eq_entered (k : InterruptKind) (s : State) :
    interruptEntry k s = notify 7 (sampleNmi (entered s.cpu.pc false k.vector s)) := by
  obtain ⟨hlow, hhigh⟩ := vector_high k
  rw [interruptEntry, takeException_eq_entered hlow hhigh]

/-- Settles O12: both kinds are the one entry, with the vector of the kind. -/
theorem interruptEntryEffect : Obligations.InterruptEntryEffect := fun s =>
  ⟨interruptEntry_eq_entered .nmi s, interruptEntry_eq_entered .irq s⟩

/-! ### Returning from an entry -/

theorem interruptEntry_sp (k : InterruptKind) (s : State) : (interruptEntry k s).cpu.sp = s.cpu.sp - 3 := by
  simp [interruptEntry_eq_entered, entered]

/-- The sample and the notified cycles write no RAM, so an entry leaves what it pushed (R365). -/
theorem interruptEntry_ram (k : InterruptKind) (s : State) :
    (interruptEntry k s).bus.ram =
      pushed [high s.cpu.pc, low s.cpu.pc, statusByte false s.cpu.p] s.cpu.sp s.bus.ram := by
  simp [interruptEntry_eq_entered, entered]

/-- Each of three pushed bytes stands at its own place, wherever S wraps (R31). -/
theorem stackByte_pushed_three {b₀ b₁ b₂ sp : Byte} {m : Memory} {s : State} (hs : s.bus.ram = pushed [b₀, b₁, b₂] sp m) :
    stackByte sp 0 s = b₀ ∧ stackByte sp 255 s = b₁ ∧ stackByte sp 254 s = b₂ := by
  have h0 : sp + BitVec.ofNat 8 0 = sp := BitVec.add_zero sp
  have h1 : sp + BitVec.ofNat 8 255 = sp - 1#8 := by bv_omega
  have h2 : sp + BitVec.ofNat 8 254 = sp - 1#8 - 1#8 := by bv_omega
  have hne01 : stackAddr sp ≠ stackAddr (sp - 1#8) := by rw [Ne, stackAddr_inj]; bv_omega
  have hne02 : stackAddr sp ≠ stackAddr (sp - 1#8 - 1#8) := by rw [Ne, stackAddr_inj]; bv_omega
  have hne12 : stackAddr (sp - 1#8) ≠ stackAddr (sp - 1#8 - 1#8) := by rw [Ne, stackAddr_inj]; bv_omega
  simp only [stackByte_eq, hs, pushed, h0, h1, h2, ← stackAddr_toNat, ramByte_put_same, ramByte_put_other hne01,
    ramByte_put_other hne02, ramByte_put_other hne12, and_self]

/-- Three pushes reach no byte but those at 0x0100 + S, S - 1 and S - 2 (R31). -/
theorem ramByte_pushed_three {b : Addr} {sp : Byte}
    (hb : ∀ j : Nat, 254 ≤ j → j ≤ 256 → b ≠ BitVec.ofNat 16 (0x100 + (sp.toNat + j) % 256)) (b₀ b₁ b₂ : Byte) (m : Memory) :
    ramByte b (pushed [b₀, b₁, b₂] sp m) = ramByte b m := by
  have hplace : ∀ (j : Nat) (q : Byte), 254 ≤ j → j ≤ 256 → (sp.toNat + j) % 256 = q.toNat → b ≠ stackAddr q := by
    intro j q h1 h2 hq he
    refine hb j h1 h2 ?_
    rw [he, hq, ← stackAddr_toNat, BitVec.ofNat_toNat, BitVec.setWidth_eq]
  have h0 := hplace 256 sp (by omega) (by omega) (by omega)
  have h1 := hplace 255 (sp - 1#8) (by omega) (by omega) (by bv_omega)
  have h2 := hplace 254 (sp - 1#8 - 1#8) (by omega) (by omega) (by bv_omega)
  simp only [pushed, ← stackAddr_toNat, ramByte_put_other h0, ramByte_put_other h1, ramByte_put_other h2]

/-- The k-th pull from S - 3 reads the place k - 3 above S (R14, R31). -/
theorem stackByte_sub_three (sp : Byte) (k : Nat) (s : State) : stackByte (sp - 3) k s = stackByte sp (k + 253) s := by
  rw [stackByte_eq, stackByte_eq, BitVec.ofNat_add, BitVec.sub_eq_add_neg, BitVec.add_assoc, BitVec.add_comm (BitVec.ofNat 8 k)]
  rfl

/-- The byte that a place above the top of the page wraps to (R31). -/
theorem stackByte_wrap (sp : Byte) (k : Nat) (s : State) : stackByte sp (k + 256) s = stackByte sp k s := by
  rw [stackByte, stackByte, ← Nat.add_assoc, Nat.add_mod_right]

/-- Pulling the status byte that was pushed gives the six flags back, whatever B was (R35). -/
theorem flagsOf_statusByte (brk : Bool) (p : Flags) : flagsOf (statusByte brk p) = p := by
  obtain ⟨n, v, d, i, z, c⟩ := p
  revert brk n v d i z c
  decide

/-- RTI with an entry's three bytes above S - 3 restores P, PC and S (R366). -/
theorem exec_rti_of_stacked {u : State} {sp : Byte} {pc : Addr} {p : Flags} {brk : Bool} (hsp : u.cpu.sp = sp - 3)
    (hp : stackByte (sp - 3) 1 u = statusByte brk p) (hlow : stackByte (sp - 3) 2 u = low pc)
    (hhigh : stackByte (sp - 3) 3 u = high pc) :
    exec .rti u =
      .next { u with
        cpu := { u.cpu with sp := sp, pc := pc, p := p }
        aux := { u.aux with reported := (u.config.cycleRow .rti .imp).base } } := by
  rw [exec_rti, returnFromException_eq_stackByte, hsp, hp, hlow, hhigh, join_high_low, flagsOf_statusByte,
    BitVec.sub_add_cancel]
  rfl

/-- Settles O13: the three bytes of the entry are the three that RTI pulls, and they determine P and PC. -/
theorem returnResumesTheInterruptedProgram : Obligations.ReturnResumesTheInterruptedProgram := by
  intro k s u hsp hstack
  obtain ⟨hhigh, hlow, hp⟩ := stackByte_pushed_three (interruptEntry_ram k s)
  rw [interruptEntry_sp] at hsp
  rw [hsp] at hstack
  refine ⟨⟨hhigh, hlow, hp⟩, fun b hb => ?frame, exec_rti_of_stacked (brk := false) hsp ?status ?low ?high⟩
  case frame => rw [interruptEntry_ram, ramByte_pushed_three hb]
  case status => rw [hstack 1 (by omega) (by omega), stackByte_sub_three, hp]
  case low => rw [hstack 2 (by omega) (by omega), stackByte_sub_three, hlow]
  case high => rw [hstack 3 (by omega) (by omega), stackByte_sub_three, stackByte_wrap _ 0, hhigh]

/-! ### The cycles of a step -/

theorem poll_cycles (s : State) : (poll s).engine.cycles = s.engine.cycles + if willEnter s then 7 else 0 := by
  rcases poll_cases s with ⟨hp, e⟩ | ⟨hp, hl, hi, e⟩ | ⟨hp, hq, e⟩
  · simp [e, interruptEntry_cycles, willEnter, hp]
  · simp [e, interruptEntry_cycles, willEnter, hp, hl, hi]
  · rcases hq with hl | hi
    · simp [e, willEnter, hp, hl]
    · simp [e, willEnter, hp, hi]

/-- The phases after an instruction notify the cycles it reported and, on an entry, 7 more (R546). -/
theorem finishStep_cycles (t : State) :
    (finishStep t).engine.cycles =
      t.engine.cycles + t.aux.reported + if willEnter (notify t.aux.reported (sampleNmi (t.setReported 0))) then 7 else 0 := by
  rw [finishStep, poll_cycles, notify_cycles, sampleNmi_cycles, State.setReported_engine]

/-- Settles O14: neither the fetch nor the execution moves the clock, so the cycles of a step are those of its last phases; a halt
and a fault have no such phases. -/
theorem stepNotifiesReportedCycles : Obligations.StepNotifiesReportedCycles := by
  refine ⟨fun s t i rest hs hd ht => ?runs, fun s hrun hend => ?stops⟩
  case runs =>
    obtain ⟨t', ht', hstep⟩ := step_of_decode hs hd
    cases ht.symm.trans ht'
    obtain ⟨t', ht', -, hengine, -⟩ := executionAlwaysCompletes i (fetchBytes s).2
    cases ht.symm.trans ht'
    have hclock : t.engine.cycles = s.engine.cycles := by rw [hengine, fetchBytes_engine]
    refine ⟨_, hstep, ?_⟩
    rw [finishStep_cycles, hclock]
    rfl
  case stops =>
    by_cases hb : s.engine.breakpoint = some s.cpu.pc
    · exact ⟨_, step_of_breakpoint hrun hb, rfl⟩
    · refine ⟨_, step_of_illegal ⟨hrun, hb⟩ (hend.resolve_left hb), ?_⟩
      rw [State.setStatus_engine, afterRead_engine]

end Sys2Proof.Machine

namespace Sys2Proof.Machine

open Claims

/-! ### Reset -/

/-- Settles O15: the reset state is the power-on state under the default Config, whose geometry is positive. -/
theorem resetMeetsTheInvariant : Obligations.ResetMeetsTheInvariant :=
  inv_reset_with (g := defaultConfig) rfl none

/-- No instruction stands outside its mnemonic's modes (R144). -/
theorem mode_mem_modes (i : Instr) : i.mode ∈ i.mnemonic.modes := by
  have hlegal : formLegal i.mnemonic i.mode = true := by cases i <;> rfl
  simpa [formLegal] using hlegal

/-- The default table has R160's counts for every mnemonic in each of its modes. -/
theorem cycleRow_default (m : Mnemonic) : ∀ md ∈ m.modes, defaultConfig.cycleRow m md = defaultRow m md := by
  cases m <;> decide

theorem Vic.reg_reset (i : Nat) : Vic.reset.reg i = 0x00#8 := by
  by_cases h : i < 47 <;> simp [Vic.reg, Vic.reset, h]

/-- Settles O18: the fields as `State.reset` has them, the registers for every index, and the default table's rows. -/
theorem resetValues : Obligations.ResetValues := by
  refine ⟨?chips, rfl, rfl, rfl, rfl, rfl, rfl, Vic.reg_reset, rfl, rfl, rfl, rfl, rfl, rfl, rfl, rfl, rfl, rfl, rfl, rfl, rfl,
    rfl, rfl, rfl, rfl, rfl, rfl, rfl, rfl, fun i => cycleRow_default _ _ (mode_mem_modes i)⟩
  rintro c (rfl | rfl) <;> exact ⟨rfl, rfl, rfl, rfl, rfl, rfl, rfl, rfl, rfl, rfl, rfl, rfl, rfl⟩

/-! ### Launch -/

/-- Without Ultimax lines the KERNAL is visible at the top of memory while latch bit 1 is set (R101). -/
theorem resolve_kernal {a : Addr} {b : BankState} (h : 0xE000 ≤ a.toNat) (hu : b.ultimax = false)
    (hh : b.latch.getLsbD 1 = true) : resolve a b = .kernal := by
  rw [resolve, if_neg (by omega), if_neg (by omega), if_neg (by omega), if_neg (by omega), if_neg (by omega), if_neg (by omega),
    if_neg (by simp [hu]), if_pos hh]

/-- A read where the KERNAL is visible gives its byte and takes no draw. -/
theorem memRead_kernal {a : Addr} {s : State} (h : 0xE000 ≤ a.toNat) (hr : resolve a s.bus.bank = .kernal) :
    memRead a s = (Config.romKernal ((a - 0xE000#16).setWidth 13), s) := by
  have hs : busSource a s = some (Config.romKernal ((a - 0xE000#16).setWidth 13)) := by
    simp [busSource, ne_latch_of_high h, hr]
  simp [memRead, busByte, afterRead, hs, readEffect_high h]

/-- Without Ultimax lines the reset vector is the KERNAL's, and reading it changes nothing (R521). -/
theorem memRead16_resetVector {s : State} (hu : s.bus.bank.ultimax = false) (hh : s.bus.bank.latch.getLsbD 1 = true) :
    memRead16 0xFFFC#16 s = (State.reset.cpu.pc, s) := by
  have hlo : memRead 0xFFFC#16 s = (Config.romKernal 0x1FFC#13, s) :=
    memRead_kernal (by decide) (resolve_kernal (by decide) hu hh)
  have hhi : memRead (0xFFFC#16 + 1#16) s = (Config.romKernal 0x1FFD#13, s) :=
    memRead_kernal (by decide) (resolve_kernal (by decide) hu hh)
  simp only [memRead16, hlo, hhi]
  rfl

/-- Without Ultimax lines a launch attaches the cartridge to the reset state and changes nothing else (R520, R521). -/
theorem launchState_eq {cart : Option Cart} (g : MachineConfig) (bp : Option Addr)
    (hu : (attach cart State.reset).bus.bank.ultimax = false) :
    launchState g bp cart = attach cart { State.reset with config := g, engine.breakpoint := bp } := by
  have hu' : (attach cart { State.reset with config := g, engine.breakpoint := bp }).bus.bank.ultimax = false := by
    cases cart <;> exact hu
  have hh : (attach cart { State.reset with config := g, engine.breakpoint := bp }).bus.bank.latch.getLsbD 1 = true := by
    cases cart <;> exact (by decide : (0x37#8).getLsbD 1 = true)
  simp only [launchState, memRead16_resetVector hu' hh]
  cases cart <;> rfl

/-- A word whose two bytes a visible cartridge window covers is the image's (R105). -/
theorem memRead16_cart {a : Addr} {s : State} {c : Cart} {lo hi : Byte} (hr : resolve a s.bus.bank = .romh)
    (hr' : resolve (a + 1#16) s.bus.bank = .romh) (hc : s.bus.cart = some c) (hle : c.load.toNat ≤ a.toNat)
    (hle' : c.load.toNat ≤ (a + 1#16).toNat) (hlo : c.image[a.toNat - c.load.toNat]? = some lo)
    (hhi : c.image[(a + 1#16).toNat - c.load.toNat]? = some hi) : (memRead16 a s).1 = wordOf hi lo := by
  have hread : busByte (a + 1#16) (afterRead a s) = hi :=
    busByte_cart (.inr (by rwa [afterRead_bus])) (by rwa [afterRead_bus]) hle' hhi
  simp only [memRead16, memRead, hread, busByte_cart (.inr hr) hc hle hlo]

/-- Under Ultimax lines the reset vector is in the cartridge's high window (R101, R521). -/
theorem launchState_ultimax_pc {c : Cart} {lo hi : Byte} (g : MachineConfig) (bp : Option Addr) (hg : c.game = false)
    (he : c.exrom = true) (hle : c.load.toNat ≤ 0xFFFC) (hlo : c.image[0xFFFC - c.load.toNat]? = some lo)
    (hhi : c.image[0xFFFD - c.load.toNat]? = some hi) : (launchState g bp (some c)).cpu.pc = join hi lo := by
  have hu : (attach (some c) { State.reset with config := g, engine.breakpoint := bp }).bus.bank.ultimax = true :=
    (ultimax_iff _).2 ⟨he, hg⟩
  rw [join_eq]
  exact memRead16_cart (resolve_romh_ultimax (by decide) hu) (resolve_romh_ultimax (by decide) hu) rfl hle
    (Nat.le_succ_of_le hle) hlo hhi

/-- Settles O19: without Ultimax lines the vector read is the KERNAL's and leaves the attached reset state; with them it is the
image's. -/
theorem launchReadsTheResetVector : Obligations.LaunchReadsTheResetVector := by
  refine ⟨fun g bp => ?none, fun g bp c hlines => ?some, (join_eq _ _).symm, fun g bp c lo hi hg he hle hlo hhi => ?ultimax⟩
  case none =>
    rw [launchState_eq g bp rfl]
    rfl
  case some =>
    have hu : (attach (some c) State.reset).bus.bank.ultimax = false := by
      rw [Bool.eq_false_iff, Ne, ultimax_iff]
      exact fun h => hlines ⟨h.2, h.1⟩
    rw [launchState_eq g bp hu]
    rfl
  case ultimax => exact launchState_ultimax_pc g bp hg he hle hlo hhi

/-! ### The checks of a launch -/

/-- The parser's digits are the claims' (R354). -/
theorem hexDigit_eq (c : Char) : hexDigit c = digitValue c := by
  have hle : ∀ d : Char, c ≤ d ↔ c.toNat ≤ d.toNat := fun d => Iff.rfl
  have hge : ∀ d : Char, d ≤ c ↔ d.toNat ≤ c.toNat := fun d => Iff.rfl
  simp only [hexDigit, digitValue, hle, hge, Char.reduceToNat]
  split_ifs <;> first | rfl | omega

/-- Text parses exactly when all its characters are digits, to the number they write (R354). -/
theorem hexValue_eq_some_iff (cs : List Char) (acc n : Nat) :
    hexValue cs acc = some n ↔
      (∀ c ∈ cs, (digitValue c).isSome = true) ∧ n = cs.foldl (fun n c => 16 * n + (digitValue c).getD 0) acc := by
  induction cs generalizing acc with
  | nil => simp [hexValue, eq_comm (a := n)]
  | cons c cs ih =>
    cases hd : digitValue c with
    | none => simp [hexValue, hexDigit_eq, hd]
    | some d => simp [hexValue, hexDigit_eq, hd, ih, Nat.mul_comm acc 16]

theorem parseBreakpointChars_ok_iff (t : String) (a : Addr) :
    parseBreakpointChars t.toList = .ok a ↔ goodText t ∧ a = BitVec.ofNat 16 (textValue t) := by
  have hvalue := hexValue_eq_some_iff t.toList 0
  unfold parseBreakpointChars goodText textValue
  split
  next hlen =>
    cases hv : hexValue t.toList 0 with
    | none =>
      have hbad : ¬∀ c ∈ t.toList, (digitValue c).isSome = true := fun h => by
        have := (hvalue _).2 ⟨h, rfl⟩
        rw [hv] at this
        cases this
      simp [hbad]
    | some n =>
      obtain ⟨hdigits, rfl⟩ := (hvalue n).1 hv
      rw [Except.ok.injEq, eq_comm, iff_and_self]
      exact fun _ => ⟨hlen.1, hlen.2, hdigits⟩
  next hlen => simp [← and_assoc, hlen]

/-- The breakpoint check passes exactly on absent or well-formed text, with the text's value (R354). -/
theorem parseBreakpoint_ok_iff (text : Option String) (bp : Option Addr) :
    parseBreakpoint text = .ok bp ↔
      (∀ t, text = some t → goodText t) ∧ bp = text.map fun t => BitVec.ofNat 16 (textValue t) := by
  cases text with
  | none => simp [parseBreakpoint, eq_comm]
  | some t =>
    have hchars := parseBreakpointChars_ok_iff t
    cases hp : parseBreakpointChars t.toList with
    | error e =>
      have hbad : ¬goodText t := fun h => by
        have := (hchars _).2 ⟨h, rfl⟩
        rw [hp] at this
        cases this
      simp [parseBreakpoint, hp, hbad]
    | ok a =>
      obtain ⟨hgood, rfl⟩ := (hchars a).1 hp
      simp [parseBreakpoint, hp, hgood, eq_comm]

/-- The cartridge that a launch argument names, if it can be read. -/
def CartArg.cart? : CartArg → Option Cart
  | .file c => some c
  | .absent | .missingFile | .readFailure => none

/-- The cartridge check passes exactly when the file is neither missing nor unreadable (R354). -/
theorem cartOfArg_ok_iff (a : CartArg) (cart : Option Cart) :
    cartOfArg a = .ok cart ↔ a ≠ .missingFile ∧ a ≠ .readFailure ∧ cart = a.cart? := by
  cases a <;> simp [cartOfArg, CartArg.cart?, eq_comm]

/-- A launch passes the three checks of R354, or it fails. -/
theorem launch_ok_iff (l : LaunchArgs) (s : State) :
    launch l = .ok s ↔
      ((∀ t, l.breakpointText = some t → goodText t) ∧ l.cart ≠ .missingFile ∧ l.cart ≠ .readFailure ∧ l.basicSize = 8192 ∧
        l.kernalSize = 8192 ∧ l.charSize = 4096) ∧
      s = launchState l.config (l.breakpointText.map fun t => BitVec.ofNat 16 (textValue t)) l.cart.cart? := by
  have htext := parseBreakpoint_ok_iff l.breakpointText
  have hcart := cartOfArg_ok_iff l.cart
  unfold launch
  cases hp : parseBreakpoint l.breakpointText with
  | error e =>
    have hbad : ¬∀ t, l.breakpointText = some t → goodText t := fun h => by
      have := (htext _).2 ⟨h, rfl⟩
      rw [hp] at this
      cases this
    simp [hbad]
  | ok bp =>
    obtain ⟨hgood, rfl⟩ := (htext bp).1 hp
    cases hc : cartOfArg l.cart with
    | error e =>
      have hbad : ¬(l.cart ≠ .missingFile ∧ l.cart ≠ .readFailure) := fun h => by
        have := (hcart _).2 ⟨h.1, h.2, rfl⟩
        rw [hc] at this
        cases this
      simp only [reduceCtorEq, false_iff]
      exact fun h => hbad ⟨h.1.2.1, h.1.2.2.1⟩
    | ok cart =>
      obtain ⟨hmissing, hread, rfl⟩ := (hcart cart).1 hc
      dsimp only
      by_cases hsize : l.basicSize = 8192 ∧ l.kernalSize = 8192 ∧ l.charSize = 4096
      · rw [if_pos hsize, Except.ok.injEq, eq_comm, iff_and_self]
        exact fun _ => ⟨hgood, hmissing, hread, hsize⟩
      · rw [if_neg hsize]
        simp only [reduceCtorEq, false_iff]
        exact fun h => hsize h.1.2.2.2

theorem parseBreakpointChars_error {cs : List Char} {e : HostError} (h : parseBreakpointChars cs = .error e) :
    e = .configError "breakpoint" := by
  unfold parseBreakpointChars at h
  split at h
  · split at h <;> cases h
    rfl
  · cases h
    rfl

theorem parseBreakpoint_error {text : Option String} {e : HostError} (h : parseBreakpoint text = .error e) :
    e = .configError "breakpoint" := by
  unfold parseBreakpoint at h
  split at h
  · cases h
  · split at h <;> cases h
    exact parseBreakpointChars_error ‹_›

theorem cartOfArg_error {a : CartArg} {e : HostError} (h : cartOfArg a = .error e) : e = .configError "cartridge" := by
  cases a <;> cases h <;> rfl

/-- Every check that fails answers a ConfigError (R357). -/
theorem launch_error {l : LaunchArgs} {e : HostError} (h : launch l = .error e) : ∃ what, e = .configError what := by
  unfold launch at h
  split at h
  next hp =>
    cases h
    exact ⟨_, parseBreakpoint_error hp⟩
  next =>
    split at h
    next hc =>
      cases h
      exact ⟨_, cartOfArg_error hc⟩
    next =>
      split at h <;> cases h
      exact ⟨_, rfl⟩

theorem launchState_breakpoint (g : MachineConfig) (bp : Option Addr) (cart : Option Cart) :
    (launchState g bp cart).engine.breakpoint = bp := by
  cases cart <;> simp [launchState, memRead16, memRead, attach]

/-- Settles O20: `launch_ok_iff` gives the checks and the state, and the failures are those of the checks. -/
theorem launchChecksTheConfiguration : Obligations.LaunchChecksTheConfiguration := by
  refine ⟨fun l => ?checks, fun l s h => ?state, fun l t s ht h => ?text, fun l s ht h => ?noText, fun l e => launch_error⟩
  case checks =>
    simp only [launch_ok_iff, exists_and_left, exists_eq, and_true]
  case state =>
    obtain ⟨-, rfl⟩ := (launch_ok_iff l s).1 h
    cases l.cart <;> rfl
  case text =>
    obtain ⟨-, rfl⟩ := (launch_ok_iff l s).1 h
    rw [launchState_breakpoint, ht]
    rfl
  case noText =>
    obtain ⟨-, rfl⟩ := (launch_ok_iff l s).1 h
    rw [launchState_breakpoint, ht]
    rfl

/-! ### Host input and host accesses -/

/-- An input event within its indices sets one key (R381). -/
theorem setKey_eq {c r : Nat} (hc : c < 8) (hr : r < 8) (down : Bool) (s : State) :
    setKey c r down s =
      .ok (s.setInput { s.input with keys := s.input.keys.set c (s.input.keys[c].set r down) }) := by
  rw [setKey, dif_pos ⟨hc, hr⟩]

theorem setKey_outside {c r : Nat} (h : 8 ≤ c ∨ 8 ≤ r) (down : Bool) (s : State) :
    setKey c r down s = .error (.preconditionViolation "key") := by
  rw [setKey, dif_neg (by omega)]

/-- The key that was set, and every other key (R381). -/
theorem getElem_set_set {keys : Vector (Vector Bool 8) 8} {c r : Nat} (hc : c < 8) (hr : r < 8) (down : Bool) :
    (keys.set c (keys[c].set r down))[c][r] = down ∧
      ∀ c' r' : Nat, (hc' : c' < 8) → (hr' : r' < 8) → ¬(c' = c ∧ r' = r) →
        (keys.set c (keys[c].set r down))[c'][r'] = keys[c'][r'] := by
  refine ⟨by simp, fun c' r' hc' hr' hne => ?_⟩
  by_cases h : c = c'
  · subst h
    simp [Vector.getElem_set_ne _ _ (show r ≠ r' by omega)]
  · simp [Vector.getElem_set_ne _ _ h]

theorem extractLsb'_zero_five (b : Byte) : b.extractLsb' 0 5 = BitVec.ofNat 5 b.toNat := by
  simp [BitVec.extractLsb']

/-- Outside 0..0xFFFF the bus is not accessed (R81). -/
theorem hostRead_outside {n : Int} (h : n < 0 ∨ 0xFFFF < n) (s : State) :
    hostRead n s = .error (.preconditionViolation "address") := by
  rw [hostRead, if_neg (by omega)]

theorem hostWrite_outside {n : Int} (h : n < 0 ∨ 0xFFFF < n) (v : Byte) (s : State) :
    hostWrite n v s = .error (.preconditionViolation "address") := by
  rw [hostWrite, if_neg (by omega)]

theorem ofInt_toNat (a : Addr) : BitVec.ofInt 16 (a.toNat : Int) = a := by
  rw [BitVec.ofInt_natCast, BitVec.ofNat_toNat, BitVec.setWidth_eq]

theorem hostRead_eq (a : Addr) (s : State) : hostRead a.toNat s = .ok (memRead a s) := by
  rw [hostRead, if_pos (by omega), ofInt_toNat]

theorem hostWrite_eq (a : Addr) (v : Byte) (s : State) : hostWrite a.toNat v s = .ok (memWrite a v s) := by
  rw [hostWrite, if_pos (by omega), ofInt_toNat]

/-- Settles O60: an event in range sets one input, an access in range is the bus's, and both fail out of range. -/
theorem hostInputAndAddressChecks : Obligations.HostInputAndAddressChecks := by
  refine ⟨fun s c r down hc hr => ?key, fun s c r h => ⟨⟨_, setKey_outside h true s⟩, _, setKey_outside h false s⟩,
    fun s b => ⟨?joy1, ?joy2, fun n h1 h2 => ⟨"joystick", ?joyOther⟩⟩, fun n v s => ⟨fun h => ?outside, fun a ha => ?inside⟩⟩
  case key =>
    obtain ⟨hset, hother⟩ := getElem_set_set (keys := s.input.keys) hc hr down
    have hevent : hostEvent (if down then .keyDown c r else .keyUp c r) s =
        .ok (s.setInput { s.input with keys := s.input.keys.set c (s.input.keys[c].set r down) }) := by
      cases down <;> exact setKey_eq hc hr _ s
    exact ⟨_, hevent, hset, hother, rfl⟩
  case joy1 => rw [← extractLsb'_zero_five]; rfl
  case joy2 => rw [← extractLsb'_zero_five]; rfl
  case joyOther => simp [hostEvent, setJoy, h1, h2]
  case outside => exact ⟨⟨_, hostRead_outside h s⟩, _, hostWrite_outside h v s⟩
  case inside =>
    subst ha
    exact ⟨hostRead_eq a s, hostWrite_eq a v s⟩

end Sys2Proof.Machine

namespace Sys2Proof.Machine

open Claims

/-! ### One tick of a timer chip -/

theorem Cia.countsA_iff (c : Cia) : c.countsA = true ↔ c.cra.getLsbD 0 = true ∧ c.cra.getLsbD 5 = false := by
  simp [Cia.countsA]

theorem Cia.underflowsA_iff (c : Cia) : c.underflowsA = true ↔ c.countsA = true ∧ c.ta = 0#16 := by
  simp [Cia.underflowsA]

/-- Bits 6 and 5 of a control register as the number of timer B's input mode (R402). -/
theorem inputMode_toNat (b : Byte) : (b.extractLsb' 5 2).toNat = b.toNat / 32 % 4 := by
  rw [BitVec.extractLsb'_toNat, Nat.shiftRight_eq_div_pow]

theorem Cia.countsB_iff (u : Bool) (c : Cia) :
    c.countsB u = true ↔
      c.crb.getLsbD 0 = true ∧ (c.crb.toNat / 32 % 4 = 0 ∨ (2 ≤ c.crb.toNat / 32 % 4 ∧ u = true)) := by
  have hzero : c.crb.extractLsb' 5 2 = 0#2 ↔ c.crb.toNat / 32 % 4 = 0 := by
    rw [← BitVec.toNat_inj, inputMode_toNat]
    rfl
  have hsix : c.crb.getLsbD 6 = true ↔ 2 ≤ c.crb.toNat / 32 % 4 := by
    rw [getLsbD_eq_decide, decide_eq_true_eq]
    omega
  rw [Cia.countsB, Bool.and_eq_true, Bool.or_eq_true, Bool.and_eq_true, beq_iff_eq, hzero, hsix]

theorem sub_one_eq_ofNat {a : Addr} (h : a ≠ 0#16) : a - 1#16 = BitVec.ofNat 16 (a.toNat - 1) := by
  bv_omega

/-- The timer A half of a tick, whole (R400). -/
theorem Cia.tickA_eq (c : Cia) :
    c.tickA =
      { c with
        ta := if c.underflowsA = true then c.taLatch
          else if c.countsA = true then BitVec.ofNat 16 (c.ta.toNat - 1) else c.ta
        cra := if c.underflowsA = true ∧ c.cra.getLsbD 3 = true then c.cra &&& 0xFE#8 else c.cra
        icrFlags := c.icrFlags ||| if c.underflowsA = true then 1#5 else 0#5 } := by
  by_cases hu : c.underflowsA = true
  · simp [Cia.tickA, hu]
  · by_cases hc : c.countsA = true
    · have hta : c.ta ≠ 0#16 := fun h => hu ((Cia.underflowsA_iff c).2 ⟨hc, h⟩)
      simp [Cia.tickA, hu, hc, sub_one_eq_ofNat hta]
    · simp [Cia.tickA, hu, hc]

/-- The timer B half of a tick, whole (R400, R402). -/
theorem Cia.tickB_eq (u : Bool) (c : Cia) :
    c.tickB u =
      { c with
        tb := if c.countsB u = true ∧ c.tb = 0#16 then c.tbLatch
          else if c.countsB u = true then BitVec.ofNat 16 (c.tb.toNat - 1) else c.tb
        crb := if (c.countsB u = true ∧ c.tb = 0#16) ∧ c.crb.getLsbD 3 = true then c.crb &&& 0xFE#8 else c.crb
        icrFlags := c.icrFlags ||| if c.countsB u = true ∧ c.tb = 0#16 then 2#5 else 0#5 } := by
  by_cases hc : c.countsB u = true
  · by_cases htb : c.tb = 0#16
    · simp [Cia.tickB, hc, htb]
    · simp [Cia.tickB, hc, htb, sub_one_eq_ofNat htb]
  · simp [Cia.tickB, hc]

theorem Cia.countsB_tickA (u : Bool) (c : Cia) : c.tickA.countsB u = c.countsB u := by
  obtain ⟨-, -, hcrb, -⟩ := Cia.tickA_timerB c
  rw [Cia.countsB, hcrb, Cia.countsB]

/-- A tick is the two halves together: timer B's half reads nothing that timer A's half writes, save the underflow it is told of
(R400). -/
theorem Cia.tick_eq (c : Cia) :
    c.tick =
      { c with
        ta := if c.underflowsA = true then c.taLatch
          else if c.countsA = true then BitVec.ofNat 16 (c.ta.toNat - 1) else c.ta
        cra := if c.underflowsA = true ∧ c.cra.getLsbD 3 = true then c.cra &&& 0xFE#8 else c.cra
        tb := if c.countsB c.underflowsA = true ∧ c.tb = 0#16 then c.tbLatch
          else if c.countsB c.underflowsA = true then BitVec.ofNat 16 (c.tb.toNat - 1) else c.tb
        crb := if (c.countsB c.underflowsA = true ∧ c.tb = 0#16) ∧ c.crb.getLsbD 3 = true then c.crb &&& 0xFE#8 else c.crb
        icrFlags := c.icrFlags ||| (if c.underflowsA = true then 1#5 else 0#5) |||
          (if c.countsB c.underflowsA = true ∧ c.tb = 0#16 then 2#5 else 0#5) } := by
  rw [Cia.tick, Cia.tickB_eq, Cia.countsB_tickA, Cia.tickA_eq]

/-! ### Many ticks of a timer -/

/-- One timer of a chip by itself: its counter, latch, control register and interrupt flag. -/
structure Timer where
  counter : BitVec 16
  latch   : BitVec 16
  control : Byte
  flag    : Bool

/-- A tick of a timer whose input is phi2 (R400). -/
def Timer.tick (t : Timer) : Timer :=
  if t.control.getLsbD 0 then
    if t.counter = 0#16 then
      { t with
        counter := t.latch
        control := if t.control.getLsbD 3 then t.control &&& 0xFE#8 else t.control
        flag := true }
    else { t with counter := t.counter - 1#16 }
  else t

theorem Timer.tick_reload {t : Timer} (h0 : t.control.getLsbD 0 = true) (hc : t.counter = 0#16) :
    t.tick =
      { t with
        counter := t.latch
        control := if t.control.getLsbD 3 then t.control &&& 0xFE#8 else t.control
        flag := true } := by
  rw [Timer.tick, if_pos h0, if_pos hc]

theorem Timer.tick_countdown {t : Timer} (h0 : t.control.getLsbD 0 = true) (hc : t.counter ≠ 0#16) :
    t.tick = { t with counter := t.counter - 1#16 } := by
  rw [Timer.tick, if_pos h0, if_neg hc]

theorem Timer.tick_stopped {t : Timer} (h0 : t.control.getLsbD 0 = false) : t.tick = t := by
  rw [Timer.tick, h0, if_neg Bool.false_ne_true]

/-- A tick clears the start bit at most (R400, R407). -/
theorem Timer.tick_inputMode (t : Timer) :
    t.tick.control.getLsbD 5 = t.control.getLsbD 5 ∧ t.tick.control.getLsbD 6 = t.control.getLsbD 6 := by
  unfold Timer.tick
  split_ifs <;> simp

/-- Where the next tick stands in a period of `p + 1` ticks. -/
theorem succ_mod_succ (n p : Nat) : (n + 1) % (p + 1) = if n % (p + 1) = p then 0 else n % (p + 1) + 1 := by
  have hlt : n % (p + 1) < p + 1 := Nat.mod_lt _ (Nat.succ_pos _)
  rw [← Nat.mod_add_mod]
  split
  next h => rw [h, Nat.mod_self]
  next h => exact Nat.mod_eq_of_lt (by omega)

/-- A running continuous timer counts down from its latch to 0 and begins again, its flag set from the first passage on (R401). -/
theorem Timer.iterate_continuous {t : Timer} (h0 : t.control.getLsbD 0 = true) (h3 : t.control.getLsbD 3 = false)
    (hc : t.counter = t.latch) (hf : t.flag = false) (n : Nat) :
    let u := Timer.tick^[n] t
    u.control = t.control ∧ u.latch = t.latch ∧ u.counter.toNat = t.latch.toNat - n % (t.latch.toNat + 1) ∧
      (u.flag = true ↔ t.latch.toNat + 1 ≤ n) := by
  induction n with
  | zero => simp [hc, hf]
  | succ n ih =>
    simp only [Function.iterate_succ_apply']
    generalize Timer.tick^[n] t = u at ih ⊢
    obtain ⟨hcontrol, hlatch, hn, hflag⟩ := ih
    have hlt : n % (t.latch.toNat + 1) < t.latch.toNat + 1 := Nat.mod_lt _ (Nat.succ_pos _)
    have hfirst : n < t.latch.toNat + 1 → n % (t.latch.toNat + 1) = n := Nat.mod_eq_of_lt
    have hzero : u.counter = 0#16 ↔ n % (t.latch.toNat + 1) = t.latch.toNat := by
      rw [← BitVec.toNat_inj, hn, BitVec.toNat_ofNat]
      omega
    rw [succ_mod_succ]
    by_cases h : u.counter = 0#16
    · have hlast := hzero.1 h
      rw [Timer.tick_reload (hcontrol ▸ h0) h, if_pos hlast]
      simp only [hcontrol, h3, hlatch, Bool.false_eq_true, if_false, Nat.sub_zero, true_and, true_iff]
      omega
    · have hpos : u.counter.toNat ≠ 0 := fun e => h (BitVec.eq_of_toNat_eq e)
      have hnot := mt hzero.2 h
      rw [Timer.tick_countdown (hcontrol ▸ h0) h, if_neg hnot]
      simp only [hcontrol, hlatch, hflag, true_and]
      exact ⟨by bv_omega, by omega⟩

/-- A one-shot timer at 0 reloads, stops and raises its flag, and then stays so (R407). -/
theorem Timer.iterate_oneShot {t : Timer} (h0 : t.control.getLsbD 0 = true) (h3 : t.control.getLsbD 3 = true)
    (hc : t.counter = 0#16) (n : Nat) :
    Timer.tick^[n + 1] t = { t with counter := t.latch, control := t.control &&& 0xFE#8, flag := true } := by
  induction n with
  | zero => rw [Function.iterate_one, Timer.tick_reload h0 hc, if_pos h3]
  | succ n ih => rw [Function.iterate_succ_apply', ih, Timer.tick_stopped (by simp)]

/-! ### The two timers of a chip -/

def Cia.timerA (c : Cia) : Timer := ⟨c.ta, c.taLatch, c.cra, c.icrFlags.getLsbD 0⟩

def Cia.timerB (c : Cia) : Timer := ⟨c.tb, c.tbLatch, c.crb, c.icrFlags.getLsbD 1⟩

/-- A tick of the chip is a tick of timer A, while that counts phi2 or is stopped (R400). -/
theorem Cia.timerA_tick {c : Cia} (h5 : c.cra.getLsbD 5 = false) : c.tick.timerA = c.timerA.tick := by
  cases h0 : c.cra.getLsbD 0
  · have hcounts : c.countsA = false := by rw [Cia.countsA, h0, Bool.false_and]
    have hstays : c.tickA = c := by simp [Cia.tickA, Cia.underflowsA, hcounts]
    obtain ⟨hta, hlatch, hcra, hflag⟩ := Cia.tickB_timerA c.underflowsA c
    rw [Timer.tick_stopped h0, Cia.tick, hstays, Cia.timerA, hta, hlatch, hcra, hflag, Cia.timerA]
  · obtain ⟨hta, hlatch, hcra, hflag⟩ := Cia.tick_timerA h0 h5
    rw [Cia.timerA, hta, hlatch, hcra, hflag]
    by_cases hc : c.ta = 0#16
    · rw [Timer.tick_reload h0 hc]
      simp [Cia.timerA, hc]
    · rw [Timer.tick_countdown h0 hc]
      simp [Cia.timerA, hc]

/-- A tick of the chip is a tick of timer B, while that counts phi2 or is stopped (R400, R402). -/
theorem Cia.timerB_tick {c : Cia} (h5 : c.crb.getLsbD 5 = false) (h6 : c.crb.getLsbD 6 = false) :
    c.tick.timerB = c.timerB.tick := by
  cases h0 : c.crb.getLsbD 0
  · obtain ⟨htb, hlatch, hcrb, hflag⟩ := Cia.tickA_timerB c
    have hcounts : c.tickA.countsB c.underflowsA = false := by rw [Cia.countsB, hcrb, h0, Bool.false_and]
    have hstays : c.tickA.tickB c.underflowsA = c.tickA := by simp [Cia.tickB, hcounts]
    rw [Timer.tick_stopped h0, Cia.tick, hstays, Cia.timerB, htb, hlatch, hcrb, hflag, Cia.timerB]
  · obtain ⟨htb, hlatch, hcrb, hflag⟩ := Cia.tick_timerB h0 h5 h6
    rw [Cia.timerB, htb, hlatch, hcrb, hflag]
    by_cases hc : c.tb = 0#16
    · rw [Timer.tick_reload h0 hc]
      simp [Cia.timerB, hc]
    · rw [Timer.tick_countdown h0 hc]
      simp [Cia.timerB, hc]

theorem Cia.timerA_iterate {c : Cia} (h5 : c.cra.getLsbD 5 = false) (n : Nat) :
    (Cia.tick^[n] c).timerA = Timer.tick^[n] c.timerA := by
  induction n generalizing c with
  | zero => rfl
  | succ n ih =>
    have hmode : c.tick.timerA.control.getLsbD 5 = false := by rw [Cia.timerA_tick h5, (Timer.tick_inputMode _).1]; exact h5
    rw [Function.iterate_succ_apply, Function.iterate_succ_apply, ih hmode, Cia.timerA_tick h5]

theorem Cia.timerB_iterate {c : Cia} (h5 : c.crb.getLsbD 5 = false) (h6 : c.crb.getLsbD 6 = false) (n : Nat) :
    (Cia.tick^[n] c).timerB = Timer.tick^[n] c.timerB := by
  induction n generalizing c with
  | zero => rfl
  | succ n ih =>
    obtain ⟨hfive, hsix⟩ := Timer.tick_inputMode c.timerB
    rw [← Cia.timerB_tick h5 h6] at hfive hsix
    rw [Function.iterate_succ_apply, Function.iterate_succ_apply, ih (hfive.trans h5) (hsix.trans h6), Cia.timerB_tick h5 h6]

/-- Timer A, counting phi2 from its latch, underflows on every (L + 1)-th tick (R400, R401). -/
theorem Cia.iterate_underflowsA {c : Cia} (h0 : c.cra.getLsbD 0 = true) (h3 : c.cra.getLsbD 3 = false)
    (h5 : c.cra.getLsbD 5 = false) (hta : c.ta = c.taLatch) (hf : c.icrFlags.getLsbD 0 = false) (n : Nat) :
    (Cia.tick^[n] c).underflowsA = true ↔ (n + 1) % (c.taLatch.toNat + 1) = 0 := by
  have hrun := Timer.iterate_continuous (t := c.timerA) h0 h3 hta hf n
  rw [← Cia.timerA_iterate h5] at hrun
  obtain ⟨hcontrol, -, hcounter, -⟩ := hrun
  have hcra : (Cia.tick^[n] c).cra = c.cra := hcontrol
  have hn : (Cia.tick^[n] c).ta.toNat = c.taLatch.toNat - n % (c.taLatch.toNat + 1) := hcounter
  have hlt : n % (c.taLatch.toNat + 1) < c.taLatch.toNat + 1 := Nat.mod_lt _ (Nat.succ_pos _)
  rw [Cia.underflowsA_iff, Cia.countsA_iff, hcra, ← BitVec.toNat_inj, hn, succ_mod_succ]
  simp only [h0, h5, and_self, true_and, BitVec.toNat_ofNat]
  split <;> omega

/-- Settles O47: the whole tick is `Cia.tick_eq`, and many ticks of the chip are many ticks of each of its timers. -/
theorem timerPeriodAndOneShot : Obligations.TimerPeriodAndOneShot := by
  refine ⟨fun c => ?tick, fun c n => ⟨fun h0 h3 h5 hta hf => ?periodA, fun h0 h3 h5 h6 htb hf => ?periodB,
    fun h0 h3 h5 hta => ?oneShotA, fun h0 h3 h5 h6 htb => ?oneShotB⟩⟩
  case tick =>
    simp only [← Cia.countsA_iff, ← Cia.underflowsA_iff, ← Cia.countsB_iff]
    exact Cia.tick_eq c
  case periodA =>
    have hrun := Timer.iterate_continuous (t := c.timerA) h0 h3 hta hf n
    rw [← Cia.timerA_iterate h5] at hrun
    obtain ⟨-, -, hcounter, hflag⟩ := hrun
    exact ⟨hcounter, hflag, Cia.iterate_underflowsA h0 h3 h5 hta hf n⟩
  case periodB =>
    have hrun := Timer.iterate_continuous (t := c.timerB) h0 h3 htb hf n
    rw [← Cia.timerB_iterate h5 h6] at hrun
    obtain ⟨-, -, hcounter, hflag⟩ := hrun
    exact ⟨hcounter, hflag⟩
  case oneShotA =>
    have hrun := Timer.iterate_oneShot (t := c.timerA) h0 h3 hta n
    rw [← Cia.timerA_iterate h5] at hrun
    exact ⟨congrArg Timer.counter hrun, congrArg Timer.control hrun, congrArg Timer.flag hrun⟩
  case oneShotB =>
    have hrun := Timer.iterate_oneShot (t := c.timerB) h0 h3 htb n
    rw [← Cia.timerB_iterate h5 h6] at hrun
    exact ⟨congrArg Timer.counter hrun, congrArg Timer.control hrun, congrArg Timer.flag hrun⟩

/-! ### Writes to a timer chip -/

/-- A write to an index that has no register is ignored (R393). -/
theorem Cia.regWrite_unused {i : BitVec 4} (h1 : 0x8 ≤ i.toNat) (h2 : i.toNat ≤ 0xC) (v : Byte) (c : Cia) :
    c.regWrite i v = c := by
  unfold Cia.regWrite
  split <;> first | rfl | omega

/-- The stored control value is the written one without its LOAD bit (R404, R405). -/
theorem clearLoad_eq (v : Byte) : v &&& 0xEF#8 = BitVec.ofNat 8 (v.toNat - 16 * (v.toNat / 16 % 2)) := by
  revert v
  decide

theorem getLsbD_four_iff (v : Byte) : v.getLsbD 4 = true ↔ v.toNat / 16 % 2 = 1 := by
  rw [getLsbD_eq_decide, decide_eq_true_eq]
  norm_num

/-- Settles O48: the branch of `Cia.regWrite` for each index, with the halves of a latch and the LOAD bit in numbers. -/
theorem timerLatchWrites : Obligations.TimerLatchWrites := by
  intro c v
  simp only [join_eq, high_eq, low_eq, ← clearLoad_eq, ← getLsbD_four_iff]
  exact ⟨rfl, rfl, rfl, rfl, rfl, rfl, rfl, rfl, fun i h1 h2 => Cia.regWrite_unused h1 h2 v c, rfl, rfl, rfl⟩

/-! ### The interrupt control register -/

/-- Two registers of flags have a bit in common exactly when their conjunction is not 0. -/
theorem and_ne_zero_iff {w : Nat} (x y : BitVec w) :
    x &&& y ≠ 0#w ↔ ∃ k : Nat, k < w ∧ x.getLsbD k = true ∧ y.getLsbD k = true := by
  constructor
  · intro hne
    by_contra hnone
    refine hne (BitVec.eq_of_getLsbD_eq fun k hk => ?_)
    rw [BitVec.getLsbD_and, BitVec.getLsbD_zero, Bool.and_eq_false_iff, ← Bool.not_eq_true, ← Bool.not_eq_true, ← not_and_or]
    exact fun hboth => hnone ⟨k, hk, hboth⟩
  · rintro ⟨k, -, hx, hy⟩ hzero
    have hbit := congrArg (·.getLsbD k) hzero
    simp only [BitVec.getLsbD_and, hx, hy, BitVec.getLsbD_zero] at hbit
    cases hbit

theorem Cia.irq_iff (c : Cia) :
    c.irq = true ↔ ∃ k : Nat, k < 5 ∧ c.icrFlags.getLsbD k = true ∧ c.icrMask.getLsbD k = true := by
  rw [Cia.irq, bne_iff_ne, and_ne_zero_iff]

/-- Each mask bit is set or cleared by v[7] where its bit in v is 1 (R411). -/
theorem Cia.icrMask_regWrite {k : Nat} (hk : k < 5) (c : Cia) (v : Byte) :
    (c.regWrite 0xD#4 v).icrMask.getLsbD k = if v.getLsbD k then v.getLsbD 7 else c.icrMask.getLsbD k := by
  have hmask : (c.regWrite 0xD#4 v).icrMask =
      if v.getLsbD 7 then c.icrMask ||| v.extractLsb' 0 5 else c.icrMask &&& ~~~(v.extractLsb' 0 5) := rfl
  have hbit : (v.extractLsb' 0 5).getLsbD k = v.getLsbD k := by simp [hk]
  rw [hmask]
  cases v.getLsbD 7
  · rw [if_neg Bool.false_ne_true, BitVec.getLsbD_and, BitVec.getLsbD_not, hbit]
    cases v.getLsbD k <;> simp [hk, -BitVec.getLsbD_eq_getElem]
  · rw [if_pos rfl, BitVec.getLsbD_or, hbit]
    cases v.getLsbD k <;> simp [-BitVec.getLsbD_eq_getElem]

theorem Cia.icrByte_eq (c : Cia) : c.icrByte = BitVec.ofNat 8 (128 * c.irq.toNat + c.icrFlags.toNat) := by
  rw [Cia.icrByte]
  generalize c.irq = irq, c.icrFlags = flags
  revert irq flags
  decide

/-- Settles O49: the output and the mask bit by bit, and the ICR's branches of a read and its effect. -/
theorem interruptControlRegister : Obligations.InterruptControlRegister := by
  refine ⟨Cia.irq_iff, fun c v => ⟨fun k hk => Cia.icrMask_regWrite hk c v, rfl⟩, fun c inp => ⟨?read, rfl, ?output, ?other⟩⟩
  case read => rw [← Cia.icrByte_eq]; rfl
  case output => simp [Cia.afterRead, Cia.irq]
  case other => exact fun i hi => if_neg hi

/-! ### The ports -/

/-- An index that has no register reads as a draw (R392). -/
theorem Cia.regRead_unused {i : BitVec 4} (h1 : 0x8 ≤ i.toNat) (h2 : i.toNat ≤ 0xC) (inp : CiaInput) (c : Cia) :
    c.regRead inp i = none := by
  unfold Cia.regRead
  split <;> first | rfl | omega

theorem columnPulled_iff (inp : CiaInput) (pb : Byte) (k : Fin 8) :
    columnPulled inp pb k = true ↔ ∃ r : Fin 8, inp.keys[k][r] = true ∧ pb.getLsbD r = false := by
  simp [columnPulled]

theorem rowPulled_iff (inp : CiaInput) (pa : Byte) (r : Fin 8) :
    rowPulled inp pa r = true ↔ ∃ k : Fin 8, inp.keys[k][r] = true ∧ pa.getLsbD k = false := by
  simp [rowPulled]

/-- A joystick pulls only the five low lines of its port (R421). -/
theorem joystick_bit_iff (j : BitVec 5) (k : Nat) : j.getLsbD k = true ↔ k ≤ 4 ∧ j.getLsbD k = true :=
  ⟨fun h => ⟨Nat.le_of_lt_succ (BitVec.lt_of_getLsbD h), h⟩, And.right⟩

theorem Cia.portA_bit_iff {c : Cia} (hid : c.id = .cia1) (inp : CiaInput) (k : Fin 8) :
    (c.portA inp).getLsbD k = true ↔
      c.paEff.getLsbD k = true ∧ ¬(∃ r : Fin 8, inp.keys[k][r] = true ∧ c.pbEff.getLsbD r = false) ∧
        ¬(k.val ≤ 4 ∧ inp.joy2.getLsbD k = true) := by
  rw [← columnPulled_iff, ← joystick_bit_iff, Cia.portA, hid, byteOfBits_getLsbD]
  simp only [Bool.and_eq_true, Bool.not_eq_true', Bool.not_eq_true, and_assoc]

theorem Cia.portB_bit_iff {c : Cia} (hid : c.id = .cia1) (inp : CiaInput) (r : Fin 8) :
    (c.portB inp).getLsbD r = true ↔
      c.pbEff.getLsbD r = true ∧ ¬(∃ k : Fin 8, inp.keys[k][r] = true ∧ c.paEff.getLsbD k = false) ∧
        ¬(r.val ≤ 4 ∧ inp.joy1.getLsbD r = true) := by
  rw [← rowPulled_iff, ← joystick_bit_iff, Cia.portB, hid, byteOfBits_getLsbD]
  simp only [Bool.and_eq_true, Bool.not_eq_true', Bool.not_eq_true, and_assoc]

/-- Settles O50: the branches of `Cia.regRead`, and the ports bit by bit. -/
theorem portPins : Obligations.PortPins := by
  refine ⟨fun c inp => ?registers, fun c inp hid => ⟨Cia.portA_bit_iff hid inp, Cia.portB_bit_iff hid inp⟩,
    fun c inp hid => ?unconnected⟩
  case registers =>
    simp only [high_eq, low_eq]
    exact ⟨rfl, rfl, rfl, rfl, rfl, rfl, rfl, rfl, fun i h1 h2 => Cia.regRead_unused h1 h2 inp c, rfl, rfl⟩
  case unconnected =>
    rw [Cia.portA, Cia.portB, hid]
    exact ⟨rfl, rfl⟩

end Sys2Proof.Machine

namespace Sys2Proof.Machine

open Claims

/-! ### The raster position -/

/-- The video chip at reset with a compare line. -/
abbrev Vic.resetWithCompare (l : BitVec 9) : Vic := { Vic.reset with rasterCompare := l }

section fromReset

variable {g : Geometry} (hg : g.valid = true) (l : BitVec 9) (n : Nat)

include hg

/-- From reset with compare line `l`, the place in the frame and the frame count after n ticks (R450, R451). -/
theorem Vic.iterate_position :
    let v := (Vic.tick g)^[n] (Vic.resetWithCompare l)
    v.position g = n % g.frameCycles ∧ v.rasterLine < g.linesPerFrame ∧ v.rasterCycle < g.cyclesPerLine ∧
      v.rasterCompare = l ∧ v.frame = n / g.frameCycles := by
  have hpos : 0 < g.cyclesPerLine ∧ 0 < g.linesPerFrame := by simpa [Geometry.valid] using hg
  have hframe : 0 < g.frameCycles := Nat.mul_pos hpos.1 hpos.2
  induction n with
  | zero => exact ⟨(Nat.zero_mod _).symm, hpos.2, hpos.1, rfl, (Nat.zero_div _).symm⟩
  | succ n ih =>
    obtain ⟨hplace, hline, hcycle, hcompare, hcount⟩ := ih
    obtain ⟨hplace', hline', hcycle', hcompare', hcount', -⟩ := Vic.tick_position hline hcycle
    simp only [Function.iterate_succ_apply']
    refine ⟨?_, hline', hcycle', hcompare'.trans hcompare, ?_⟩
    · rw [hplace', hplace, Nat.mod_add_mod]
    · have hlt : n % g.frameCycles < g.frameCycles := Nat.mod_lt _ hframe
      have hwrap : g.frameCycles ∣ n + 1 ↔ n % g.frameCycles + 1 = g.frameCycles := by
        rw [Nat.dvd_iff_mod_eq_zero, ← Nat.mod_add_mod]
        constructor
        · intro h
          by_contra hne
          rw [Nat.mod_eq_of_lt (by omega)] at h
          omega
        · intro h
          rw [h, Nat.mod_self]
      rw [hcount', hcount, hplace, Nat.succ_div]
      simp only [hwrap]

/-- The place in the frame, split into line and cycle (R451). -/
theorem Vic.iterate_raster :
    let v := (Vic.tick g)^[n] (Vic.resetWithCompare l)
    v.rasterCycle = n % g.cyclesPerLine ∧ v.rasterLine = n / g.cyclesPerLine % g.linesPerFrame ∧
      v.frame = n / g.frameCycles := by
  obtain ⟨hplace, hline, hcycle, -, hcount⟩ := Vic.iterate_position hg l n
  have hpos : 0 < g.cyclesPerLine := Nat.zero_lt_of_lt hcycle
  simp only [Vic.position] at hplace
  refine ⟨?_, ?_, hcount⟩
  · rw [← Nat.mod_mul_right_mod n g.cyclesPerLine g.linesPerFrame, ← Geometry.frameCycles, ← hplace, Nat.mul_add_mod,
      Nat.mod_eq_of_lt hcycle]
  · rw [← Nat.mod_mul_right_div_self, ← Geometry.frameCycles, ← hplace, Nat.mul_add_div hpos, Nat.div_eq_of_lt hcycle,
      Nat.add_zero]

end fromReset

/-- Settles O51: the position in the frame is the tick number modulo the frame, and its line and cycle are its quotient and
remainder. -/
theorem rasterPosition : Obligations.RasterPosition :=
  ⟨fun _ n hg => Vic.iterate_raster hg 0#9 n, Vic.iterate_raster rfl 0#9⟩

/-! ### The raster interrupt -/

/-- The raster source is latched by tick k of a run from reset with compare line `l` (R446). -/
def LatchesAt (g : Geometry) (l : BitVec 9) (k : Nat) : Prop := k % g.frameCycles = g.cyclesPerLine * l.toNat

section fromReset

variable {g : Geometry} (hg : g.valid = true) (l : BitVec 9) (n : Nat)

include hg

/-- The tick after n latches the source, whatever was latched before, exactly at the compare line's start (R446). -/
theorem Vic.iterate_latch (flags : BitVec 4) :
    (({ (Vic.tick g)^[n] (Vic.resetWithCompare l) with irqFlags := flags } : Vic).tick g).irqFlags =
      if (n + 1) % g.frameCycles = g.cyclesPerLine * l.toNat then flags ||| 1#4 else flags := by
  obtain ⟨hplace, hline, hcycle, hcompare, -⟩ := Vic.iterate_position hg l n
  obtain ⟨-, -, -, -, -, hflags⟩ :=
    Vic.tick_position (v := { (Vic.tick g)^[n] (Vic.resetWithCompare l) with irqFlags := flags }) hline hcycle
  rw [hflags, hcompare, ← Nat.mod_add_mod n, ← hplace]
  rfl

/-- After n ticks the raster source alone can be latched, and it is when some tick so far latched it (R443, R446). -/
theorem Vic.iterate_irqFlags :
    let v := (Vic.tick g)^[n] (Vic.resetWithCompare l)
    (v.irqFlags = 1#4 ∧ ∃ k, 1 ≤ k ∧ k ≤ n ∧ LatchesAt g l k) ∨
      (v.irqFlags = 0#4 ∧ ¬∃ k, 1 ≤ k ∧ k ≤ n ∧ LatchesAt g l k) := by
  induction n with
  | zero => exact .inr ⟨rfl, fun ⟨k, h1, h2, _⟩ => by omega⟩
  | succ n ih =>
    have hstep := Vic.iterate_latch hg l n ((Vic.tick g)^[n] (Vic.resetWithCompare l)).irqFlags
    simp only [Function.iterate_succ_apply']
    by_cases hnow : LatchesAt g l (n + 1)
    · refine .inl ⟨hstep.trans ((if_pos hnow).trans ?_), n + 1, by omega, Nat.le_refl _, hnow⟩
      obtain ⟨h, -⟩ | ⟨h, -⟩ := ih <;> rw [h] <;> rfl
    · have hflags := hstep.trans (if_neg hnow)
      obtain ⟨h, k, h1, h2, hk⟩ | ⟨h, hnone⟩ := ih
      · exact .inl ⟨hflags.trans h, k, h1, by omega, hk⟩
      · refine .inr ⟨hflags.trans h, fun ⟨k, h1, h2, hk⟩ => ?_⟩
        obtain rfl | hlt := Nat.eq_or_lt_of_le h2
        · exact hnow hk
        · exact hnone ⟨k, h1, Nat.le_of_lt_succ hlt, hk⟩

theorem Vic.iterate_irqFlags_iff :
    let v := (Vic.tick g)^[n] (Vic.resetWithCompare l)
    (v.irqFlags = 1#4 ↔ ∃ k, 1 ≤ k ∧ k ≤ n ∧ LatchesAt g l k) ∧ (v.irqFlags = 0#4 ↔ ¬∃ k, 1 ≤ k ∧ k ≤ n ∧ LatchesAt g l k) := by
  obtain ⟨h, hk⟩ | ⟨h, hk⟩ := Vic.iterate_irqFlags hg l n
  · simp only [h, hk, not_true_eq_false, iff_false]
    decide
  · simp only [h, hk, iff_false, not_false_eq_true, and_true]
    decide

end fromReset

/-- A compare line that is no line is never reached (R446). -/
theorem not_latchesAt {g : Geometry} {l : BitVec 9} (hg : g.valid = true) (h : g.linesPerFrame ≤ l.toNat) (k : Nat) :
    ¬LatchesAt g l k := by
  have hpos : 0 < g.cyclesPerLine ∧ 0 < g.linesPerFrame := by simpa [Geometry.valid] using hg
  have hlt : k % g.frameCycles < g.frameCycles := Nat.mod_lt _ (Nat.mul_pos hpos.1 hpos.2)
  exact Nat.ne_of_lt (hlt.trans_le (Nat.mul_le_mul_left _ h))

/-- Settles O53: a tick latches exactly at the compare line's start, and nothing else touches the sources. -/
theorem rasterInterruptTiming : Obligations.RasterInterruptTiming := by
  refine ⟨fun g l n hg => ⟨?tick, (Vic.iterate_irqFlags_iff hg l n).1, (Vic.iterate_irqFlags_iff hg l n).2, ?compare⟩,
    fun l n => ⟨(Vic.iterate_irqFlags_iff rfl l n).1, fun h => ?unreached⟩⟩
  case tick =>
    rw [Vic.iterate_latch hg l n 0#4]
    split
    next h => exact ⟨fun _ => h, fun _ => rfl⟩
    next h => exact ⟨fun e => absurd e (by decide), fun e => absurd e h⟩
  case compare =>
    obtain ⟨-, -, -, hcompare, -⟩ := Vic.iterate_position hg l n
    exact hcompare
  case unreached => exact (Vic.iterate_irqFlags_iff rfl l n).2.2 fun ⟨k, _, _, hk⟩ => not_latchesAt rfl h k hk

/-! ### One tick of the video chip -/

/-- Within a line only the cycle moves (R450). -/
theorem Vic.tick_within {g : Geometry} {v : Vic} (h : v.rasterCycle + 1 ≠ g.cyclesPerLine) :
    v.tick g = { v with rasterCycle := v.rasterCycle + 1 } := if_neg h

/-- At the end of a line the next one starts, whole (R450). -/
theorem Vic.tick_lineStart {g : Geometry} {v : Vic} (h : v.rasterCycle + 1 = g.cyclesPerLine) :
    let wraps := v.rasterLine + 1 = g.linesPerFrame
    let line := if wraps then 0 else v.rasterLine + 1
    v.tick g =
      { v with
        rasterCycle := 0
        rasterLine := line
        frame := if wraps then v.frame + 1 else v.frame
        badlineEnable := decide ((line = 0x30 ∧ (v.reg 0x11).toNat / 16 % 2 = 1) ∨ (¬wraps ∧ v.badlineEnable = true))
        irqFlags := if line = v.rasterCompare.toNat then v.irqFlags ||| 1#4 else v.irqFlags } := by
  intro wraps line
  have hden := getLsbD_four_iff (v.reg 0x11)
  by_cases hw : v.rasterLine + 1 = g.linesPerFrame
  · have hnext : v.nextLine g =
        { v with rasterCycle := 0, rasterLine := 0, frame := v.frame + 1, badlineEnable := false } := if_pos hw
    rw [Vic.tick, if_pos h, hnext]
    simp [Vic.lineStart, wraps, line, hw]
  · have hnext : v.nextLine g = { v with rasterCycle := 0, rasterLine := v.rasterLine + 1 } := if_neg hw
    rw [Vic.tick, if_pos h, hnext]
    simp only [Vic.lineStart, wraps, line, if_neg hw, Vic.mk.injEq, true_and, and_true]
    rw [Bool.eq_iff_iff, Bool.or_eq_true, Bool.and_eq_true, beq_iff_eq, decide_eq_true_eq, ← hden, or_comm]
    simp only [hw, not_false_eq_true, true_and]
    rfl

theorem Vic.badline_iff (l : Nat) (v : Vic) :
    v.badline l = true ↔ 0x30 ≤ l ∧ l ≤ 0xF7 ∧ l % 8 = (v.reg 0x11).toNat % 8 ∧ v.badlineEnable = true := by
  have hscroll : BitVec.ofNat 3 l = (v.reg 0x11).extractLsb' 0 3 ↔ l % 8 = (v.reg 0x11).toNat % 8 := by
    rw [← BitVec.toNat_inj, BitVec.toNat_ofNat, BitVec.extractLsb'_toNat, Nat.shiftRight_zero]
  simp only [Vic.badline, Bool.and_eq_true, decide_eq_true_eq, beq_iff_eq, hscroll, and_assoc]

/-- Settles O52: the two branches of a tick, and the badline condition in numbers. -/
theorem videoTickAndBadlines : Obligations.VideoTickAndBadlines := fun _ v =>
  ⟨Vic.tick_within, Vic.tick_lineStart, fun l => Vic.badline_iff l v⟩

end Sys2Proof.Machine

namespace Sys2Proof.Machine

open Claims

/-! ### Writes to the video chip -/

/-- The indices whose register stores the byte as written (R441, R442). -/
def vicStoresByte (n : Nat) : Prop :=
  n < 0x2F ∧ n ≠ 0x11 ∧ n ≠ 0x12 ∧ n ≠ 0x13 ∧ n ≠ 0x14 ∧ n ≠ 0x19 ∧ n ≠ 0x1A ∧ n ≠ 0x1E ∧ n ≠ 0x1F

/-- Everything a write to a register of the video chip can do (R441, R447). -/
theorem Vic.regWrite_cases (v : Vic) (i : BitVec 6) (b : Byte) :
    (i.toNat = 0x11 ∧ v.regWrite i b =
      { v.setReg 0x11 (b &&& 0x7F#8) with
        rasterCompare := BitVec.ofBool (b.getLsbD 7) ++ v.rasterCompare.extractLsb' 0 8 }) ∨
    (i.toNat = 0x12 ∧ v.regWrite i b = { v with rasterCompare := v.rasterCompare.extractLsb' 8 1 ++ b }) ∨
    (i.toNat = 0x19 ∧ v.regWrite i b = { v with irqFlags := v.irqFlags &&& ~~~(b.extractLsb' 0 4) }) ∨
    (i.toNat = 0x1A ∧ v.regWrite i b = { v with irqEnable := b.extractLsb' 0 4 }) ∨
    ((i.toNat ∈ [0x13, 0x14, 0x1E, 0x1F] ∨ 0x2F ≤ i.toNat) ∧ v.regWrite i b = v) ∨
    (vicStoresByte i.toNat ∧ v.regWrite i b = v.setReg i.toNat b) := by
  simp only [Vic.regWrite, vicStoresByte, List.mem_cons, List.not_mem_nil, or_false]
  split
  next h => exact .inl ⟨h, rfl⟩
  split
  next h => exact .inr (.inl ⟨h, rfl⟩)
  split
  next h => exact .inr (.inr (.inr (.inr (.inl ⟨.inl h, rfl⟩))))
  split
  next h => exact .inr (.inr (.inl ⟨h, rfl⟩))
  split
  next h => exact .inr (.inr (.inr (.inl ⟨h, rfl⟩)))
  split
  next h => exact .inr (.inr (.inr (.inr (.inl ⟨.inr h, rfl⟩))))
  · exact .inr (.inr (.inr (.inr (.inr ⟨by omega, rfl⟩))))

section write

variable (v : Vic) (i : BitVec 6) (b : Byte)

/-- No write reaches another stored register (R441). -/
theorem Vic.reg_regWrite_other {j : Nat} (h : j ≠ i.toNat) : (v.regWrite i b).reg j = v.reg j := by
  rcases v.regWrite_cases i b with ⟨hi, e⟩ | ⟨_, e⟩ | ⟨_, e⟩ | ⟨_, e⟩ | ⟨_, e⟩ | ⟨_, e⟩ <;> rw [e]
  · exact Vic.reg_setReg_other (hi ▸ h) _ v
  · rfl
  · rfl
  · rfl
  · exact Vic.reg_setReg_other h b v

/-- No write moves the raster, the frame count or the badline enable (R441). -/
theorem Vic.regWrite_raster :
    (v.regWrite i b).rasterLine = v.rasterLine ∧ (v.regWrite i b).rasterCycle = v.rasterCycle ∧
      (v.regWrite i b).frame = v.frame ∧ (v.regWrite i b).badlineEnable = v.badlineEnable := by
  rcases v.regWrite_cases i b with ⟨_, e⟩ | ⟨_, e⟩ | ⟨_, e⟩ | ⟨_, e⟩ | ⟨_, e⟩ | ⟨_, e⟩ <;> rw [e] <;> exact ⟨rfl, rfl, rfl, rfl⟩

/-- The compare line changes only at its two indices (R443). -/
theorem Vic.regWrite_rasterCompare (h1 : i.toNat ≠ 0x11) (h2 : i.toNat ≠ 0x12) :
    (v.regWrite i b).rasterCompare = v.rasterCompare := by
  rcases v.regWrite_cases i b with ⟨h, e⟩ | ⟨h, e⟩ | ⟨_, e⟩ | ⟨_, e⟩ | ⟨_, e⟩ | ⟨_, e⟩
  · exact absurd h h1
  · exact absurd h h2
  all_goals exact (congrArg Vic.rasterCompare e).trans rfl

/-- The latched sources change only at 0x19 (R447). -/
theorem Vic.regWrite_irqFlags (h : i.toNat ≠ 0x19) : (v.regWrite i b).irqFlags = v.irqFlags := by
  rcases v.regWrite_cases i b with ⟨_, e⟩ | ⟨_, e⟩ | ⟨hi, _⟩ | ⟨_, e⟩ | ⟨_, e⟩ | ⟨_, e⟩
  case inr.inr.inl => exact absurd hi h
  all_goals exact (congrArg Vic.irqFlags e).trans rfl

/-- The enables change only at 0x1A (R448). -/
theorem Vic.regWrite_irqEnable (h : i.toNat ≠ 0x1A) : (v.regWrite i b).irqEnable = v.irqEnable := by
  rcases v.regWrite_cases i b with ⟨_, e⟩ | ⟨_, e⟩ | ⟨_, e⟩ | ⟨hi, _⟩ | ⟨_, e⟩ | ⟨_, e⟩
  case inr.inr.inr.inl => exact absurd hi h
  all_goals exact (congrArg Vic.irqEnable e).trans rfl

/-- A register that stores the byte holds it after the write (R441). -/
theorem Vic.reg_regWrite_same (h : vicStoresByte i.toNat) : (v.regWrite i b).reg i.toNat = b := by
  unfold vicStoresByte at h
  simp (disch := omega) only [Vic.regWrite, if_neg]
  exact Vic.reg_setReg_same h.1 b v

end write

/-! ### Acknowledging the raster interrupt -/

/-- A write of v to 0x19 clears the latched sources whose bit in v is 1 (R447). -/
theorem Vic.irqFlags_acknowledge {k : Nat} (hk : k < 4) (v : Vic) (b : Byte) :
    (v.regWrite 0x19#6 b).irqFlags.getLsbD k = (v.irqFlags.getLsbD k && !b.getLsbD k) := by
  have hflags : (v.regWrite 0x19#6 b).irqFlags = v.irqFlags &&& ~~~(b.extractLsb' 0 4) := rfl
  have hbit : (b.extractLsb' 0 4).getLsbD k = b.getLsbD k := by simp [hk]
  rw [hflags, BitVec.getLsbD_and, BitVec.getLsbD_not, hbit, decide_eq_true hk, Bool.true_and]

/-- A tick latches sources and clears none (R446). -/
theorem Vic.tick_keeps_irqFlags (g : Geometry) {v : Vic} {k : Nat} (h : v.irqFlags.getLsbD k = true) :
    (v.tick g).irqFlags.getLsbD k = true := by
  have hlatched : (v.irqFlags ||| 1#4).getLsbD k = true := by rw [BitVec.getLsbD_or, h, Bool.true_or]
  by_cases hc : v.rasterCycle + 1 = g.cyclesPerLine
  · rw [Vic.tick_lineStart hc]
    dsimp only
    split_ifs <;> assumption
  · rw [Vic.tick_within hc]
    exact h

/-- A read-modify-write of a visible video register writes the modified byte to it (R117, R118). -/
theorem exec_modify_vic {m : Mnemonic} {f : Form} {op : Byte} {i : Instr} {s t : State} {k : BitVec 6}
    (h : modifyInstr m f = some (op, i)) (hr : resolve (f.ea s) s.bus.bank = .io) (hk : ioTarget (f.ea s) = .vic k)
    (ht : exec i s = .next t) : t.vic = s.vic.regWrite k (modifyByte m s.cpu.p (busByte (f.ea s) s)) := by
  cases ht.symm.trans (exec_modifyInstr h s)
  have hwrite : ∀ v : Byte, (memWrite (f.ea s) v (afterRead (f.ea s) s)).vic = s.vic.regWrite k v := by
    intro v
    rw [memWrite_io (by rwa [afterRead_bus]), ioWrite, hk, State.setVic_vic, afterRead_vic]
  exact hwrite _

/-- With the raster source alone latched, 0xD019 reads as output, ones and bit 0 (R445, R447). -/
theorem busByte_irqFlags {s : State} (hr : resolve 0xD019#16 s.bus.bank = .io) (hf : s.vic.irqFlags = 1#4) :
    busByte 0xD019#16 s = BitVec.ofBool s.vic.irq ++ 0b111#3 ++ 1#4 := by
  have hread : busSource 0xD019#16 s = some (BitVec.ofBool s.vic.irq ++ 0b111#3 ++ s.vic.irqFlags) := busSource_io (by decide) hr
  rw [busByte, hread, hf, Option.getD_some]

/-- Of the byte that INC, ASL or LSR makes of such a read, bit 0 is 0, so writing it back acknowledges no raster interrupt. -/
theorem modifyByte_irqFlags {m : Mnemonic} (hm : m ∈ [.inc, .asl, .lsr]) (p : Flags) (irq : Bool) :
    (modifyByte m p (BitVec.ofBool irq ++ 0b111#3 ++ 1#4)).getLsbD 0 = false := by
  have hinc : ∀ irq : Bool, ((BitVec.ofBool irq ++ 0b111#3 ++ 1#4 : Byte) + 1#8).getLsbD 0 = false := by decide
  have hasl : ∀ irq : Bool, (aslByte (BitVec.ofBool irq ++ 0b111#3 ++ 1#4)).1.getLsbD 0 = false := by decide
  have hlsr : ∀ irq : Bool, (lsrByte (BitVec.ofBool irq ++ 0b111#3 ++ 1#4)).1.getLsbD 0 = false := by decide
  simp only [List.mem_cons, List.not_mem_nil, or_false] at hm
  obtain rfl | rfl | rfl := hm
  · exact hinc irq
  · exact hasl irq
  · exact hlsr irq

/-- A read-modify-write of a visible 0xD019 by INC, ASL or LSR leaves the raster source latched (R447). -/
theorem irqFlags_modify {m : Mnemonic} {op : Byte} {i : Instr} {s t : State} (h : modifyInstr m (.abs 0xD019#16) = some (op, i))
    (hm : m ∈ [.inc, .asl, .lsr]) (hr : resolve 0xD019#16 s.bus.bank = .io) (hf : s.vic.irqFlags = 1#4)
    (ht : exec i s = .next t) : t.vic.irqFlags = 1#4 := by
  have htarget : ioTarget 0xD019#16 = .vic 0x19#6 := by decide
  have hea : (Form.abs 0xD019#16).ea s = 0xD019#16 := rfl
  have hvic := exec_modify_vic h (by rwa [hea]) (by rwa [hea]) ht
  rw [hea] at hvic
  rw [busByte_irqFlags hr hf] at hvic
  have hbit := modifyByte_irqFlags hm s.cpu.p s.vic.irq
  have hone : ∀ k < 4, k ≠ 0 → (1#4).getLsbD k = false := by decide
  refine BitVec.eq_of_getLsbD_eq fun k hk => ?_
  rw [hvic, Vic.irqFlags_acknowledge hk, hf]
  by_cases h0 : k = 0
  · rw [h0, hbit]
    rfl
  · rw [hone k hk h0, Bool.false_and]

/-- Settles O54: 0x19 clears the sources of its 1 bits, the other writes and the ticks clear none, and the three instructions
write bit 0 as 0. -/
theorem rasterAcknowledge : Obligations.RasterAcknowledge := by
  refine ⟨fun v b k hk => Vic.irqFlags_acknowledge hk v b, fun v b => rfl,
    fun v i b hi => v.regWrite_irqFlags i b fun h => ?index, fun g v k => Vic.tick_keeps_irqFlags g,
    fun i s t hi hr hf ht => ?modify⟩
  case index => exact hi (BitVec.eq_of_toNat_eq h)
  case modify =>
    simp only [List.mem_cons, List.not_mem_nil, or_false] at hi
    obtain rfl | rfl | rfl := hi
    · exact irqFlags_modify (m := .inc) rfl (by decide) hr hf ht
    · exact irqFlags_modify (m := .asl) rfl (by decide) hr hf ht
    · exact irqFlags_modify (m := .lsr) rfl (by decide) hr hf ht

/-! ### Reads of the video chip -/

section read

variable {v : Vic} {i : BitVec 6}

theorem Vic.regRead_rasterHigh (h : i.toNat = 0x11) :
    v.regRead i = some (BitVec.ofBool (v.rasterLine.testBit 8) ++ (v.reg 0x11).extractLsb' 0 7) := if_pos h

theorem Vic.regRead_rasterLow (h : i.toNat = 0x12) : v.regRead i = some (BitVec.ofNat 8 v.rasterLine) := by
  simp (disch := omega) only [Vic.regRead, if_neg, if_pos]

theorem Vic.regRead_draw (h : i.toNat ∈ [0x13, 0x14, 0x1E, 0x1F]) : v.regRead i = none := by
  simp only [List.mem_cons, List.not_mem_nil, or_false] at h
  simp (disch := omega) only [Vic.regRead, if_neg, if_pos]

theorem Vic.regRead_control2 (h : i.toNat = 0x16) : v.regRead i = some (v.reg i.toNat ||| 0xC0#8) := by
  simp (disch := omega) only [Vic.regRead, if_neg, if_pos]
  rw [h]

theorem Vic.regRead_pointers (h : i.toNat = 0x18) : v.regRead i = some (v.reg i.toNat ||| 0x01#8) := by
  simp (disch := omega) only [Vic.regRead, if_neg, if_pos]
  rw [h]

theorem Vic.regRead_irqFlags (h : i.toNat = 0x19) : v.regRead i = some (BitVec.ofBool v.irq ++ 0b111#3 ++ v.irqFlags) := by
  simp (disch := omega) only [Vic.regRead, if_neg, if_pos]

theorem Vic.regRead_irqEnable (h : i.toNat = 0x1A) : v.regRead i = some (0xF#4 ++ v.irqEnable) := by
  simp (disch := omega) only [Vic.regRead, if_neg, if_pos]

theorem Vic.regRead_unused (h : 0x2F ≤ i.toNat) : v.regRead i = some 0xFF#8 := by
  simp (disch := omega) only [Vic.regRead, if_neg, if_pos]

theorem Vic.regRead_colour (h1 : 0x20 ≤ i.toNat) (h2 : i.toNat ≤ 0x2E) : v.regRead i = some (v.reg i.toNat ||| 0xF0#8) := by
  simp (disch := omega) only [Vic.regRead, if_neg, if_pos]

theorem Vic.regRead_plain (h : i.toNat ≤ 0x10 ∨ i.toNat ∈ [0x15, 0x17, 0x1B, 0x1C, 0x1D]) :
    v.regRead i = some (v.reg i.toNat) := by
  simp only [List.mem_cons, List.not_mem_nil, or_false] at h
  simp (disch := omega) only [Vic.regRead, if_neg]

end read

theorem toNat_concat {m n : Nat} (x : BitVec m) (y : BitVec n) : (x ++ y).toNat = x.toNat * 2 ^ n + y.toNat := by
  rw [BitVec.toNat_append, ← Nat.shiftLeft_add_eq_or_of_lt y.isLt, Nat.shiftLeft_eq]

/-- Control register 1 reads as bit 8 of the raster line over the seven bits that were stored (R441). -/
theorem rasterHigh_eq (line : Nat) (b : Byte) :
    BitVec.ofBool (line.testBit 8) ++ (b &&& 0x7F#8).extractLsb' 0 7 =
      BitVec.ofNat 8 (128 * (line / 256 % 2) + b.toNat % 128) := by
  have hlow : (b &&& 0x7F#8).toNat = b.toNat % 128 := by
    rw [BitVec.toNat_and]
    exact Nat.and_two_pow_sub_one_eq_mod _ 7
  apply BitVec.eq_of_toNat_eq
  rw [toNat_concat, BitVec.toNat_ofBool, Nat.toNat_testBit, BitVec.extractLsb'_toNat, hlow, BitVec.toNat_ofNat]
  omega

/-- Bit 8 of the compare line is bit 7 of the byte written to 0x11, and the rest stays (R443). -/
theorem compareHigh_toNat (b : Byte) (compare : BitVec 9) :
    (BitVec.ofBool (b.getLsbD 7) ++ compare.extractLsb' 0 8).toNat = 256 * (b.toNat / 128) + compare.toNat % 256 := by
  have hb := b.isLt
  rw [toNat_concat, BitVec.toNat_ofBool, toNat_getLsbD, BitVec.extractLsb'_toNat]
  omega

/-- The low byte of the compare line is the byte written to 0x12 (R443). -/
theorem compareLow_toNat (b : Byte) (compare : BitVec 9) :
    (compare.extractLsb' 8 1 ++ b).toNat = 256 * (compare.toNat / 256) + b.toNat := by
  have hc := compare.isLt
  rw [toNat_concat, BitVec.extractLsb'_toNat, Nat.shiftRight_eq_div_pow]
  omega

theorem irqFlagsByte_eq (irq : Bool) (flags : BitVec 4) :
    BitVec.ofBool irq ++ 0b111#3 ++ flags = BitVec.ofNat 8 (128 * irq.toNat + 112 + flags.toNat) := by
  revert irq flags
  decide

theorem irqEnableByte_eq (b : Byte) : 0xF#4 ++ b.extractLsb' 0 4 = b ||| 0xF0#8 := by
  revert b
  decide

/-- A write to an index without a register is ignored (R441, R442). -/
theorem Vic.regWrite_ignored {i : BitVec 6} (h : i.toNat ∈ [0x13, 0x14, 0x1E, 0x1F] ∨ 0x2F ≤ i.toNat) (b : Byte) (v : Vic) :
    v.regWrite i b = v := by
  simp only [List.mem_cons, List.not_mem_nil, or_false] at h
  rcases h with h | h
  · simp (disch := omega) only [Vic.regWrite, if_neg, if_pos]
  · simp (disch := omega) only [Vic.regWrite, if_neg, if_pos]

/-- Writing 0x11 stores its seven low bits and sets bit 8 of the compare line (R441, R443). -/
theorem Vic.regWrite_rasterHigh {i : BitVec 6} (h : i.toNat = 0x11) (b : Byte) (v : Vic) :
    v.regWrite i b =
      { v.setReg 0x11 (b &&& 0x7F#8) with
        rasterCompare := BitVec.ofBool (b.getLsbD 7) ++ v.rasterCompare.extractLsb' 0 8 } := if_pos h

/-- Writing 0x12 sets the low byte of the compare line (R443). -/
theorem Vic.regWrite_rasterLow {i : BitVec 6} (h : i.toNat = 0x12) (b : Byte) (v : Vic) :
    v.regWrite i b = { v with rasterCompare := v.rasterCompare.extractLsb' 8 1 ++ b } := by
  simp (disch := omega) only [Vic.regWrite, if_neg, if_pos]

/-- Writing 0x1A sets the enables (R448). -/
theorem Vic.regWrite_enable {i : BitVec 6} (h : i.toNat = 0x1A) (b : Byte) (v : Vic) :
    v.regWrite i b = { v with irqEnable := b.extractLsb' 0 4 } := by
  simp (disch := omega) only [Vic.regWrite, if_neg, if_pos]

theorem Vic.irq_iff (v : Vic) :
    v.irq = true ↔ ∃ k : Nat, k < 4 ∧ v.irqFlags.getLsbD k = true ∧ v.irqEnable.getLsbD k = true := by
  rw [Vic.irq, bne_iff_ne, and_ne_zero_iff]

/-- Settles O55: each index's read after its write, and what `Vic.regWrite_cases` leaves alone. -/
theorem videoRegisters : Obligations.VideoRegisters := by
  intro v i b
  obtain ⟨hline, hcycle, hframe, hbadline⟩ := v.regWrite_raster i b
  refine ⟨fun h => ?plain, fun h => ⟨?read11, ?compare11⟩, fun h => ⟨?read12, ?compare12⟩,
    fun h => ⟨Vic.regRead_draw h, Vic.regWrite_ignored (.inl h) b v⟩, fun h => ?read16, fun h => ?read18, fun h => ?read19,
    fun h => ?read1A, fun h1 h2 => ?colour, fun h => ⟨Vic.regRead_unused h, Vic.regWrite_ignored (.inr h) b v⟩,
    fun j => v.reg_regWrite_other i b, hline, hcycle, hframe, hbadline, v.regWrite_rasterCompare i b, v.regWrite_irqFlags i b,
    fun h => ?enable, v.regWrite_irqEnable i b, v.irq_iff⟩
  case plain =>
    rw [Vic.regRead_plain h, Vic.reg_regWrite_same]
    simp only [List.mem_cons, List.not_mem_nil, or_false] at h
    unfold vicStoresByte
    omega
  case read11 =>
    have hreg : (v.regWrite i b).reg 0x11 = b &&& 0x7F#8 := by
      rw [Vic.regWrite_rasterHigh h]
      exact Vic.reg_setReg_same (by decide) _ v
    rw [Vic.regRead_rasterHigh h, hreg, hline, rasterHigh_eq]
  case compare11 => rw [Vic.regWrite_rasterHigh h, compareHigh_toNat]
  case read12 => rw [Vic.regRead_rasterLow h, hline]
  case compare12 => rw [Vic.regWrite_rasterLow h, compareLow_toNat]
  case read16 => rw [Vic.regRead_control2 h, Vic.reg_regWrite_same _ _ _ (by unfold vicStoresByte; omega)]
  case read18 => rw [Vic.regRead_pointers h, Vic.reg_regWrite_same _ _ _ (by unfold vicStoresByte; omega)]
  case read19 => rw [Vic.regRead_irqFlags h, irqFlagsByte_eq]
  case read1A => rw [Vic.regRead_irqEnable h, Vic.regWrite_enable h, irqEnableByte_eq]
  case colour => rw [Vic.regRead_colour h1 h2, Vic.reg_regWrite_same _ _ _ (by unfold vicStoresByte; omega)]
  case enable => rw [Vic.regWrite_enable h, BitVec.extractLsb'_toNat, Nat.shiftRight_zero]

end Sys2Proof.Machine

namespace Sys2Proof.Machine

open Claims

/-! ### The geometry of the disk image -/

theorem diskOffset_eq (t s : Nat) : diskOffset t s = diskOffset t 0 + 256 * s := by
  rw [diskOffset, diskOffset, Nat.add_zero, Nat.mul_add]

/-- Settles O56: the table's rows and the totals are computed, and a sector's offset is linear in its number. -/
theorem diskGeometry : Obligations.DiskGeometry :=
  ⟨by decide, by decide, diskOffset_eq, by decide, by decide, by decide⟩

/-! ### Parsing a run of tracks -/

/-- The number of sectors of a list of tracks. -/
def sectorCount (ts : List Nat) : Nat := (ts.map spt).sum

theorem sectorCount_cons (t : Nat) (ts : List Nat) : sectorCount (t :: ts) = spt t + sectorCount ts := by
  rw [sectorCount, List.map_cons, List.sum_cons, sectorCount]

/-- With the bytes there, each track gets its sectors, byte `j` of sector `s` of the `k`-th track being the stream's byte at that
sector's place (R494, R495). -/
theorem parseTracks_ok (ts : List Nat) (bs : List Byte) (h : 256 * sectorCount ts ≤ bs.length) :
    ∃ tracks, parseTracks ts bs = .ok tracks ∧ tracks.map (·.length) = ts.map spt ∧
      ∀ k t, ts[k]? = some t → ∃ tr, tracks[k]? = some tr ∧ ∀ s, s < spt t → ∃ sec, tr[s]? = some sec ∧
        ∀ j, (hj : j < 256) → some sec[j] = bs[256 * (sectorCount (ts.take k) + s) + j]? := by
  induction ts generalizing bs with
  | nil => exact ⟨[], rfl, rfl, fun k t hk => by simp at hk⟩
  | cons t ts ih =>
    rw [sectorCount_cons] at h
    obtain ⟨ss, hss, hlen, hbytes⟩ := parseSectors_ok t (spt t) 0 bs (by omega)
    obtain ⟨tracks, htracks, hlens, hrest⟩ := ih (bs.drop (256 * spt t)) (by rw [List.length_drop]; omega)
    refine ⟨ss :: tracks, by rw [parseTracks, hss]; simp only [htracks], by simp [hlen, hlens], fun k u hk => ?_⟩
    cases k with
    | zero =>
      cases hk
      refine ⟨ss, rfl, fun s hs => ?_⟩
      obtain ⟨sec, hsec, hj⟩ := hbytes s hs
      exact ⟨sec, hsec, fun j hlt => by rw [hj j hlt, List.take_zero, sectorCount, List.map_nil, List.sum_nil, Nat.zero_add]⟩
    | succ k =>
      obtain ⟨tr, htr, hsecs⟩ := hrest k u hk
      refine ⟨tr, htr, fun s hs => ?_⟩
      obtain ⟨sec, hsec, hj⟩ := hsecs s hs
      refine ⟨sec, hsec, fun j hlt => ?_⟩
      rw [hj j hlt, List.getElem?_drop, List.take_succ_cons, sectorCount_cons]
      congr 1
      omega

/-- Without them, parsing fails at the first sector whose 256 bytes are not all there (R494). -/
theorem parseTracks_error (ts : List Nat) (bs : List Byte) (h : bs.length < 256 * sectorCount ts) :
    ∃ k t s, ts[k]? = some t ∧ s < spt t ∧ 256 * (sectorCount (ts.take k) + s) ≤ bs.length ∧
      bs.length < 256 * (sectorCount (ts.take k) + s) + 256 ∧ parseTracks ts bs = .error (.diskTruncated t s) := by
  induction ts generalizing bs with
  | nil => exact absurd h (Nat.not_lt_zero _)
  | cons t ts ih =>
    rw [sectorCount_cons] at h
    by_cases hfirst : bs.length < 256 * spt t
    · obtain ⟨s, hs, h1, h2, he⟩ := parseSectors_error t (spt t) 0 bs hfirst
      have hzero : sectorCount (List.take 0 (t :: ts)) = 0 := rfl
      refine ⟨0, t, s, rfl, hs, by rw [hzero]; omega, by rw [hzero]; omega, ?_⟩
      rw [parseTracks, he, Nat.zero_add]
    · obtain ⟨ss, hss, -, -⟩ := parseSectors_ok t (spt t) 0 bs (Nat.not_lt.1 hfirst)
      obtain ⟨k, u, s, hk, hs, h1, h2, he⟩ := ih (bs.drop (256 * spt t)) (by rw [List.length_drop]; omega)
      rw [List.length_drop] at h1 h2
      refine ⟨k + 1, u, s, hk, hs, ?_, ?_, by rw [parseTracks, hss]; simp only [he]⟩
      · rw [List.take_succ_cons, sectorCount_cons]
        omega
      · rw [List.take_succ_cons, sectorCount_cons]
        omega

/-- Bytes after the last sector are handed on unread. -/
theorem parseSectors_append {t n i : Nat} {bs rest : List Byte} {ss : List Sector} (h : parseSectors t n i bs = .ok (ss, rest))
    (more : List Byte) : parseSectors t n i (bs ++ more) = .ok (ss, rest ++ more) := by
  induction n generalizing i bs ss with
  | zero =>
    cases h
    rfl
  | succ n ih =>
    rw [parseSectors] at h ⊢
    split at h
    · cases h
    next hl =>
      rw [List.length_take] at hl
      have htake : (bs ++ more).take 256 = bs.take 256 := List.take_append_of_le_length (by omega)
      have hdrop : (bs ++ more).drop 256 = bs.drop 256 ++ more := List.drop_append_of_le_length (by omega)
      split at h <;> cases h
      next hp => rw [htake, hdrop, if_neg (by rw [List.length_take]; omega), ih hp]

/-- Bytes after the last track are not read (R494). -/
theorem parseTracks_append {ts : List Nat} {bs : List Byte} {tracks : List Track} (h : parseTracks ts bs = .ok tracks)
    (more : List Byte) : parseTracks ts (bs ++ more) = .ok tracks := by
  induction ts generalizing bs tracks with
  | nil => exact h
  | cons t ts ih =>
    rw [parseTracks] at h ⊢
    split at h
    · cases h
    next hss =>
      split at h <;> cases h
      next hrest => simp only [parseSectors_append hss, ih hrest]

/-! ### Parsing a disk image -/

theorem sectorCount_allTracks : 256 * sectorCount (List.range' 1 Config.numTracks) = 174848 := by decide

/-- The tracks before track t are those that `sectorsBefore` counts (R493). -/
theorem sectorCount_take {t : Nat} (h : t ≤ 35) :
    sectorCount ((List.range' 1 Config.numTracks).take (t - 1)) = sectorsBefore t := by
  rw [List.take_range'_of_length_ge (Nat.sub_le_of_le_add (Nat.le_succ_of_le h)), sectorCount, sectorsBefore]

theorem getElem?_allTracks {k : Nat} (h : k < 35) : (List.range' 1 Config.numTracks)[k]? = some (k + 1) := by
  have hk : (List.range' 1 35)[k]? = some (1 + 1 * k) := List.getElem?_range' h
  rw [Config.numTracks, hk, Nat.one_mul, Nat.add_comm]

theorem parseDisk_of_parseTracks {stream : List Byte} {tracks : List Track}
    (h : parseTracks (List.range' 1 Config.numTracks) stream = .ok tracks) : parseDisk stream = .ok { tracks := tracks } := by
  rw [parseDisk, h]

theorem getTrack_eq {img : DiskImage} {t : Int} {tr : Track} (h1 : 1 ≤ t) (h2 : t ≤ 35)
    (h : img.tracks[(t - 1).toNat]? = some tr) : getTrack img t = .ok tr := by
  rw [getTrack, if_pos ⟨h1, h2⟩, h]

theorem getSector_eq {tr : Track} {s : Int} {sec : Sector} (h0 : 0 ≤ s) (h : tr[s.toNat]? = some sec) :
    getSector tr s = .ok sec := by
  rw [getSector, if_pos h0, h]

/-- Settles O57: the tracks that `parseTracks_ok` gives are the image's, looked up at their numbers. -/
theorem parsedBytesAreTheStreamBytes : Obligations.ParsedBytesAreTheStreamBytes := by
  intro stream hlen
  obtain ⟨tracks, hparse, hlens, hbytes⟩ := parseTracks_ok _ stream (sectorCount_allTracks.trans_le hlen)
  refine ⟨_, parseDisk_of_parseTracks hparse, beq_iff_eq.2 hlens, fun t s j h1 h2 hs hj => ?_⟩
  have hk : (List.range' 1 Config.numTracks)[t - 1]? = some t := by
    rw [getElem?_allTracks (by omega), Nat.sub_add_cancel h1]
  obtain ⟨tr, htr, hsecs⟩ := hbytes (t - 1) t hk
  obtain ⟨sec, hsec, hbyte⟩ := hsecs s hs
  rw [sectorCount_take h2] at hbyte
  have hindex : ((t : Int) - 1).toNat = t - 1 := by omega
  exact ⟨tr, sec, getTrack_eq (by omega) (by omega) (by rw [hindex, htr]), getSector_eq (by omega) hsec, hbyte j hj⟩

/-- Settles O58: `parseTracks_error` names the sector, and `parseTracks_append` ignores what follows the last one. -/
theorem shortStreamsFailAtTheFirstMissingSector : Obligations.ShortStreamsFailAtTheFirstMissingSector := by
  refine ⟨fun stream hlen => ?short, fun stream hlen => ?long⟩
  case short =>
    obtain ⟨k, t, s, hk, hs, h1, h2, he⟩ := parseTracks_error _ stream (hlen.trans_eq sectorCount_allTracks.symm)
    have hlt : k < 35 := by
      have := (List.getElem?_eq_some_iff.1 hk).1
      rwa [List.length_range'] at this
    rw [getElem?_allTracks hlt] at hk
    cases hk
    have hbefore := sectorCount_take (t := k + 1) (by omega)
    rw [Nat.add_sub_cancel] at hbefore
    rw [hbefore] at h1 h2
    exact ⟨k + 1, s, by omega, by omega, hs, h1, h2, by rw [parseDisk, he]⟩
  case long =>
    have hprefix : (stream.take 174848).length = 174848 := by rw [List.length_take, Nat.min_eq_left hlen]
    obtain ⟨tracks, hparse, -, -⟩ := parseTracks_ok _ (stream.take 174848) (by rw [hprefix, sectorCount_allTracks])
    have hwhole := parseTracks_append hparse (stream.drop 174848)
    rw [List.take_append_drop] at hwhole
    exact ⟨_, parseDisk_of_parseTracks hwhole, parseDisk_of_parseTracks hparse⟩

/-! ### Sectors and lookups -/

/-- A well-formed image has a track of the right length at every number (R50). -/
theorem DiskImage.wf_track {img : DiskImage} (h : img.wf = true) {k : Nat} (hk : k < 35) :
    ∃ tr, img.tracks[k]? = some tr ∧ tr.length = spt (k + 1) := by
  have hlens := congrArg (·[k]?) (beq_iff_eq.1 h)
  simp only [List.getElem?_map, getElem?_allTracks hk, Option.map_some, Option.map_eq_some_iff] at hlens
  exact hlens

/-- Outside 1..35 there is no track (R497). -/
theorem getTrack_outside {t : Int} (h : t < 1 ∨ 35 < t) (img : DiskImage) :
    getTrack img t = .error (.preconditionViolation "track") := by
  rw [getTrack, if_neg (by omega)]

/-- Outside the track's sectors there is no sector (R497). -/
theorem getSector_outside {tr : Track} {s : Int} (h : s < 0 ∨ (tr.length : Int) ≤ s) :
    getSector tr s = .error (.preconditionViolation "sector") := by
  unfold getSector
  split
  next h0 => rw [List.getElem?_eq_none (by omega)]
  · rfl

/-- Settles O59: a buffer that fits is filled with zeros, and a lookup succeeds exactly at the indices of a well-formed image. -/
theorem sectorsAndLookups : Obligations.SectorsAndLookups := by
  refine ⟨fun b hb => if_pos hb, fun b hb => ⟨sectorOf b, if_neg (Nat.not_lt.2 hb), fun j => getElem_sectorOf⟩,
    fun img t hwf h1 h2 => ?_, fun img t h => ⟨_, getTrack_outside h img⟩⟩
  obtain ⟨tr, htr, hlen⟩ := DiskImage.wf_track hwf (k := (t - 1).toNat) (by omega)
  rw [show (t - 1).toNat + 1 = t.toNat by omega] at hlen
  refine ⟨tr, getTrack_eq h1 h2 htr, htr, hlen, fun s => ⟨fun h0 hs => ?_, fun h => ⟨_, getSector_outside (hlen ▸ h)⟩⟩⟩
  have hsec : tr[s.toNat]? = some tr[s.toNat] := List.getElem?_eq_getElem (by omega)
  exact ⟨_, getSector_eq h0 hsec, hsec⟩

end Sys2Proof.Machine
